-- ==== Sys2Proof/Word.lean ====
section
/-! DEFINITION. The words of the CORE: the widths its registers, tables and ports have. -/

namespace Sys2Proof

/-- A byte (00_scope.md R7): a frame byte, a mirror slot, a bus address of at most 8 bits. -/
abbrev Byte := BitVec 8

/-- A 16-bit word: the running CRC and a CRC table entry (40_checksum.md R121). -/
abbrev Half := BitVec 16

/-- A 32-bit word: a frequency in Hz, a time in ticks, a command result. -/
abbrev Word := BitVec 32

/-- One command word of the command port (30_encoding.md R92). -/
abbrev Command := BitVec 40

end Sys2Proof
end

