-- ==== Sys2Proof/Config.lean ====
section
/-! DEFINITION. The configuration record of 00_scope.md R6, and the free values: constants with no body that
stand for what no rule fixes. -/

namespace Sys2Proof

/-- The nine sensor-kind codes `P_KIND_*` (00_scope.md R6, 30_encoding.md R107). -/
structure SensorKinds where
  supercap : BitVec 4
  uv : BitVec 4
  rainRate : BitVec 4
  solar : BitVec 4
  light : BitVec 4
  temp : BitVec 4
  gust : BitVec 4
  humidity : BitVec 4
  rainClick : BitVec 4
  deriving DecidableEq, Repr, Inhabited

/-- The parameters for which no document states a value (`OPEN` in 00_scope.md R6, with no reference value). -/
structure OpenParams where
  /-- `P_FREQ`, Hz. -/
  freq : List Word
  /-- `P_HOP`. -/
  hop : List Nat
  /-- `P_STATION_NUMBER`. -/
  stationNumber : Nat
  /-- `P_DWELL_BASE`, ticks. -/
  dwellBase : Word
  /-- `P_DWELL_STEP`, ticks. -/
  dwellStep : Word
  /-- `P_TICK`: the length of a tick, in a unit no rule names; no rule reads it. -/
  tick : Nat
  /-- `P_M`: how many slots the mirror has. -/
  slots : Nat
  /-- `P_ADDR`. -/
  addr : List Byte
  /-- `P_MIR_RESET`. -/
  mirReset : List Byte
  /-- `P_ADDR_FIFO`. -/
  addrFifo : Byte
  /-- `P_ADDR_RSSI_CFG`. -/
  addrRssiCfg : Byte
  /-- `P_ADDR_RSSI_VAL`. -/
  addrRssiVal : Byte
  /-- `P_RSSI_START`. -/
  rssiStart : Byte
  /-- `P_RSSI_DONE`. -/
  rssiDone : Byte
  /-- `P_MODE_MASK`. -/
  modeMask : Byte
  /-- `P_MODE_STANDBY`. -/
  modeStandby : Byte
  /-- `P_MODE_RX`. -/
  modeRx : Byte
  /-- `P_T_RST_HIGH`, ticks. -/
  rstHigh : Word
  /-- `P_T_RST_SETTLE`, ticks. -/
  rstSettle : Word
  deriving DecidableEq, Repr, Inhabited

/-- The configuration record (00_scope.md R6): the OPEN parameters and those with a reference value.
`P_CRC_LEN` is fixed at 2 and `FRAME_LEN` and `DWELL` are derived (Machine/Params.lean). -/
structure Config extends OpenParams where
  /-- `P_N`. -/
  channels : Nat
  /-- `P_PAYLOAD_LEN`. -/
  payloadLen : Nat
  /-- `P_POLY`. -/
  poly : Half
  /-- `P_CRC_INIT`. -/
  crcInit : Half
  /-- `P_RESIDUE`. -/
  residue : Half
  /-- `P_BAD_THRESHOLD`. -/
  badThreshold : Nat
  /-- `P_STEP_NUM`. -/
  stepNum : Nat
  /-- `P_STEP_DEN`. -/
  stepDen : Nat
  /-- `P_BUS_AW`. -/
  busAw : Nat
  /-- `P_KIND_*`. -/
  kinds : SensorKinds
  /-- `P_RX_RSSI_TRIGGER`: OPEN, with the default 0 (00_scope.md R6, 45_rssi.md R250). -/
  rxRssiTrigger : Bool
  deriving DecidableEq, Repr, Inhabited

/-- One answer of the device to a bus transaction (20_memory.md R64, R65): whether it succeeded, the byte a
read returns, and the ticks it took (70_reset_and_hazards.md R331). -/
structure BusAnswer where
  ok : Bool
  data : Byte
  ticks : Nat
  deriving DecidableEq, Repr, Inhabited

/-- The OPEN parameters without a reference value, of the build that State.reset describes (log 1). FREE VALUE. -/
opaque Config.openParams : OpenParams

/-- The device's answer to the n-th bus transaction that no script answers (20_memory.md R66, log 4). FREE VALUE. -/
opaque Config.busAnswer : Nat → BusAnswer

/-- The ticks that pass before the n-th sample of `now` that no script times (70_reset_and_hazards.md R331,
log 6). FREE VALUE. -/
opaque Config.lag : Nat → Nat

/-- The level of the line `irq` at a tick that no script gives (10_state.md R49, log 7). FREE VALUE. -/
opaque Config.irqAt : Nat → Bool

/-- The true time when the machine leaves reset (10_state.md R47, 91_not_in_source.md N5, log 8). FREE VALUE. -/
opaque Config.timeAtReset : Nat

end Sys2Proof
end

