-- ==== Sys2Proof/Machine/Params.lean ====
section
/-! DEFINITION. What the configuration record alone determines: the derived parameters, the constraints of
00_scope.md R6, the argument ranges of 30_encoding.md R98 that no register enters, and the build that State.reset
describes. -/

namespace Sys2Proof

/-- `FRAME_LEN = P_PAYLOAD_LEN + 2` (00_scope.md R6, 30_encoding.md R100). -/
def Config.frameLen (c : Config) : Nat := c.payloadLen + 2

/-- `DWELL` before it is held in 32 bits (00_scope.md R6). -/
def Config.dwellNat (c : Config) : Nat := c.dwellBase.toNat + c.stationNumber * c.dwellStep.toNat

/-- The register `dwell` (10_state.md R45). -/
def Config.dwell (c : Config) : Word := BitVec.ofNat 32 c.dwellNat

/-- The register `station_number` (10_state.md R45). -/
def Config.stationReg (c : Config) : Byte := BitVec.ofNat 8 c.stationNumber

/-- The register `station_filter = P_STATION_NUMBER[3:0]` (10_state.md R45). -/
def Config.stationFilter (c : Config) : BitVec 4 := BitVec.ofNat 4 c.stationNumber

/-- `P_FREQ[i]`. -/
def Config.freqAt (c : Config) (i : Nat) : Word := c.freq.getD i 0

/-- `P_HOP[i]`. -/
def Config.hopAt (c : Config) (i : Nat) : Nat := c.hop.getD i 0

/-- `P_ADDR[k]`. -/
def Config.addrAt (c : Config) (k : Nat) : Byte := c.addr.getD k 0

/-- `FreqWord(hz)` as a natural (44_transceiver.md R209): no 32-bit overflow, truncated. -/
def Config.freqWord (c : Config) (hz : Word) : Nat := hz.toNat * c.stepDen / c.stepNum

/-- `IsRx(b)` (44_transceiver.md R207). -/
def Config.isRx (c : Config) (b : Byte) : Bool := b &&& c.modeMask == c.modeRx

/-- `WithMode(b, m)` (44_transceiver.md R207). -/
def Config.withMode (c : Config) (b m : Byte) : Byte := (b &&& ~~~c.modeMask) ||| m

/-- The slots in the order a push writes them, for the mode byte the mirror holds (44_transceiver.md R212):
the mode last when it says RX, first otherwise. -/
def Config.pushOrder (c : Config) (modeByte : Byte) : List Nat :=
  if c.isRx modeByte then List.range' 1 (c.slots - 1) ++ [0] else List.range c.slots

/-- `r` is a number of the host register map (10_state.md R53, 47_host_access.md R266). -/
def Config.rdInRange (c : Config) (r : Byte) : Bool :=
  decide (r.toNat ≤ 0x10) || (decide (0x20 ≤ r.toNat) && decide (r.toNat < 0x20 + c.frameLen)) ||
    (decide (0x30 ≤ r.toNat) && decide (r.toNat < 0x30 + c.frameLen)) ||
    (decide (0x40 ≤ r.toNat) && decide (r.toNat < 0x40 + c.slots))

/-- The index range of `FRAME.LD` (30_encoding.md R98). -/
def Config.frameIndexInRange (c : Config) (i : BitVec 4) : Bool := decide (i.toNat < c.frameLen)

/-- The range of a channel index or hop index (30_encoding.md R98). -/
def Config.planInRange (c : Config) (b : Byte) : Bool := decide (b.toNat < c.channels)

/-- A frequency whose word fits 24 bits (30_encoding.md R98). -/
def Config.freqInRange (c : Config) (hz : Word) : Bool := decide (c.freqWord hz < 2 ^ 24)

/-- The nine kinds as a list, for their distinctness (00_scope.md R6). -/
def SensorKinds.all (k : SensorKinds) : List (BitVec 4) :=
  [k.supercap, k.uv, k.rainRate, k.solar, k.light, k.temp, k.gust, k.humidity, k.rainClick]

/-- The channel plan's constraints (00_scope.md R6, 20_memory.md R62): equal lengths, and a hop order that is a
bijection of `[0, P_N)`. -/
abbrev Config.planWf (c : Config) : Prop :=
  1 ≤ c.channels ∧ c.channels ≤ 256 ∧ c.freq.length = c.channels ∧ c.hop.length = c.channels ∧
    (∀ h ∈ c.hop, h < c.channels) ∧ c.hop.Nodup

/-- The constraints on the frame, the checksum, the handler and the dwell (00_scope.md R6). -/
abbrev Config.frameWf (c : Config) : Prop :=
  6 ≤ c.payloadLen ∧ c.payloadLen ≤ 14 ∧ 1 ≤ c.badThreshold ∧ c.badThreshold ≤ 255 ∧
    c.stationNumber ≤ 15 ∧ 1 ≤ c.dwellNat ∧ c.dwellNat < 2 ^ 32 ∧ c.kinds.all.Nodup

/-- The constraints on the mirror, the bus addresses and the frequency step (00_scope.md R6). -/
abbrev Config.busWf (c : Config) : Prop :=
  4 ≤ c.slots ∧ c.slots ≤ 64 ∧ c.addr.length = c.slots ∧ c.mirReset.length = c.slots ∧ c.addr.Nodup ∧
    1 ≤ c.busAw ∧ c.busAw ≤ 8 ∧
    (∀ a ∈ c.addrFifo :: c.addrRssiCfg :: c.addrRssiVal :: c.addr, a.toNat < 2 ^ c.busAw) ∧
    c.addrFifo ∉ c.addr ∧ c.addrRssiCfg ∉ c.addr ∧ c.addrRssiVal ∉ c.addr ∧
    1 ≤ c.stepNum ∧ 1 ≤ c.stepDen ∧ 61 * c.stepDen ≤ c.stepNum ∧ c.stepNum < 62 * c.stepDen

/-- The constraints on the mode field and the RSSI ready mask (00_scope.md R6). -/
abbrev Config.modeWf (c : Config) : Prop :=
  c.rssiDone ≠ 0 ∧ c.modeMask ≠ 0 ∧ c.modeStandby &&& ~~~c.modeMask = 0 ∧ c.modeRx &&& ~~~c.modeMask = 0 ∧
    c.modeRx ≠ c.modeStandby

/-- Every constraint of 00_scope.md R6. -/
abbrev Config.wf (c : Config) : Prop := c.planWf ∧ c.frameWf ∧ c.busWf ∧ c.modeWf

/-- The reference design (00_scope.md R2, R6) around given OPEN parameters. The step, the bus width and eight
sensor codes are the spec's reference values from general knowledge (PRESUMED, log 2); `P_RX_RSSI_TRIGGER` has its
stated default 0 (R6, 45_rssi.md R250). -/
def Config.reference (o : OpenParams) : Config :=
  { o with
    channels := 51, payloadLen := 8, poly := 0x1021, crcInit := 0, residue := 0, badThreshold := 5
    stepNum := 32000000, stepDen := 524288, busAw := 7
    kinds := { supercap := 2, uv := 4, rainRate := 5, solar := 6, light := 7, temp := 8, gust := 9
               humidity := 10, rainClick := 14 }
    rxRssiTrigger := false }

/-- OPEN parameters that meet every constraint, so that `Config.build` is well formed whatever the free ones
are; nothing else uses them (log 1). -/
def Config.fallbackParams : OpenParams :=
  { freq := List.replicate 51 0, hop := List.range 51, stationNumber := 0, dwellBase := 1, dwellStep := 0
    tick := 0, slots := 4, addr := [1, 2, 3, 4], mirReset := [0, 0, 0, 0], addrFifo := 0, addrRssiCfg := 5
    addrRssiVal := 6, rssiStart := 0, rssiDone := 1, modeMask := 1, modeStandby := 0, modeRx := 1
    rstHigh := 0, rstSettle := 0 }

/-- The OPEN parameters of the build: free, but meeting the constraints of 00_scope.md R6 (log 1). -/
def Config.buildParams : OpenParams :=
  if (Config.reference Config.openParams).wf then Config.openParams else Config.fallbackParams

/-- The build that State.reset describes: the reference design with free OPEN parameters (log 1). -/
def Config.build : Config := Config.reference Config.buildParams

end Sys2Proof
end

