-- ==== Sys2Proof/Machine/State.lean ====
section
/-! DEFINITION. The state of the machine as plain data: the seven groups of 10_state.md R20, the ports, and the
environment's inputs (00_scope.md R13), with the state after core reset (10_state.md R54). -/

namespace Sys2Proof.Machine

/-- Which command the RSSI poll is running for, and what of it is decided already: what the sequencer needs to go
on when the ready bit is seen (45_rssi.md R247, log 10). -/
inductive Resume where
  /-- `READ_RSSI 1`. -/
  | readRssi
  /-- `RECEIVE.I` or `RECEIVE.D`, whose wait ended with `fired`. -/
  | receive (fired : Bool)
  /-- `LOOP.STEP`, whose wait ended with `fired`. -/
  | loopStep (fired : Bool)
  deriving DecidableEq, Repr

/-- `phase`, the sequencer's place inside the running command (10_state.md R24). -/
inductive Phase where
  /-- No command running; the command port is ready. -/
  | idle
  /-- A command is executing. R24 gives it for a command that cannot block; that a command that can block is here too
  outside its waits (its pushes, its payload, the value read after a poll) is a DESIGN CHOICE (log 20). -/
  | run
  /-- Inside the bounded wait of `receive` (44_transceiver.md R222). -/
  | waitIrq
  /-- Inside the ready-bit poll (45_rssi.md R247). -/
  | pollRssi (k : Resume)
  /-- Inside the first delay of `DEV_RESET` (44_transceiver.md R228). -/
  | rstHigh
  /-- Inside the second delay of `DEV_RESET` (44_transceiver.md R228). -/
  | rstSettle
  deriving DecidableEq, Repr

/-- The status codes (30_encoding.md R95); 5 to 15 are never produced. -/
inductive Status where
  | ok
  | errIllegal
  | errArg
  | errBus
  | errFault
  deriving DecidableEq, Repr

/-- What the response channel presents (30_encoding.md R90). -/
structure Response where
  status : Status
  result : Word
  deriving DecidableEq, Repr

/-- `hp_outcome`: 0 TIMEOUT, 1 CORRUPT, 2 WRONG_STATION, 3 GOOD (10_state.md R44). -/
inductive HpOutcome where
  | timeout
  | corrupt
  | wrongStation
  | good
  deriving DecidableEq, Repr

/-- One event of the trace with its answer (20_memory.md R67). -/
inductive Event where
  /-- `R(a)`, answered by a byte or by failure. -/
  | read (a : Byte) (answer : Option Byte)
  /-- `W(a, v)`, answered by success or by failure. -/
  | write (a v : Byte) (ok : Bool)
  /-- `RST(b)`. -/
  | rst (level : Bool)
  /-- `DELAY(n)`. -/
  | delay (ticks : Nat)
  /-- `WAIT(e, fired)`. -/
  | wait (ticks : Nat) (fired : Bool)
  /-- `R(a)`, issued but not answered: `rst_n` fell while it was in flight (70_reset_and_hazards.md R310, log 11). -/
  | readCut (a : Byte)
  /-- `W(a, v)`, issued but not answered: `rst_n` fell while it was in flight (70_reset_and_hazards.md R310, log 11). -/
  | writeCut (a v : Byte)
  deriving DecidableEq, Repr

/-- One thing the host does next (00_scope.md R13, 30_encoding.md R90, 70_reset_and_hazards.md R310). -/
inductive HostInput where
  /-- Hold a command word on the command port until it is accepted. -/
  | cmd (w : Command)
  /-- Issue nothing for some ticks. -/
  | idle (ticks : Nat)
  /-- Pull `rst_n` low when the sequencer has passed this many further points (log 11). -/
  | resetAfter (points : Nat)
  /-- Hold a command word until it is accepted, and pull `rst_n` low before it answers or emits an event (log 11). -/
  | cmdCut (w : Command)
  deriving DecidableEq, Repr

/-- Checksum Engine state (10_state.md R25, R26). -/
structure Checksum where
  crc : Half
  crcOk : Bool
  deriving DecidableEq, Repr

/-- The frame buffers, `FRAME_LEN` bytes each (10_state.md R27, R28). -/
structure Frames where
  raw : List Byte
  dec : List Byte
  deriving DecidableEq, Repr

/-- The eight value registers of a Reading, written together or not at all (10_state.md R30 to R37). -/
structure ReadingVal where
  station : BitVec 4
  kind : BitVec 4
  raw : BitVec 24
  num : Half
  den : Byte
  wspd : Byte
  wdir : Byte
  batt : Bool
  deriving DecidableEq, Repr

/-- The Reading registers (10_state.md R29 to R38). -/
structure Reading where
  val : ReadingVal
  valid : Bool
  nfts : Bool
  deriving DecidableEq, Repr

/-- Hop and sync state (10_state.md R39 to R44). -/
structure Sync where
  hopIndex : Byte
  hopChan : Byte
  hopFreq : Word
  locked : Bool
  cb : Byte
  lastGood : Word
  lastHop : Word
  hpOutcome : HpOutcome
  shouldHop : Bool
  deriving DecidableEq, Repr

/-- Transceiver driver state (10_state.md R46, R48, R49) with the hidden `irq_prev` (R51). -/
structure Driver where
  mir : List Byte
  rxTimedOut : Bool
  rssiRaw : Byte
  devRst : Bool
  irqPrev : Bool
  deriving DecidableEq, Repr

/-- Fault state (10_state.md R50). -/
structure FaultRegs where
  fault : Bool
  errAddr : Byte
  errRw : Bool
  deriving DecidableEq, Repr

/-- The line `irq` holds `level` at every tick from `start` up to but not including `stop`. -/
structure IrqSpan where
  start : Nat
  stop : Nat
  level : Bool
  deriving DecidableEq, Repr

/-- The inputs that are neither the host's nor the configuration: true time, and what the device will do. Each
script is used first; past it the value is free (20_memory.md R66, log 4 to 7). -/
structure Env where
  /-- The true time `T`, with `now = T mod 2^32` (10_state.md R47). -/
  time : Nat
  /-- The device's answers to the next bus transactions. -/
  busScript : List BusAnswer
  /-- How many free answers have been drawn. -/
  busDraws : Nat
  /-- The ticks that pass before the next samples of `now`. -/
  lagScript : List Nat
  /-- How many free lags have been drawn. -/
  lagDraws : Nat
  /-- The known levels of `irq`. -/
  irqScript : List IrqSpan
  deriving DecidableEq, Repr

/-- The state of the machine. -/
structure State where
  /-- The configuration record; no operation writes it (00_scope.md R14, log 1). -/
  cfg : Config
  phase : Phase
  chk : Checksum
  buf : Frames
  rd : Reading
  sync : Sync
  drv : Driver
  flt : FaultRegs
  /-- The response channel: what the last step presented, if it ended a command (10_state.md R22, log 13). -/
  resp : Option Response
  /-- The input `rst_n`: the number of sequencer points until it falls, `some 0` when it is low (log 11). -/
  rstIn : Option Nat
  /-- What the host does next, in order (log 3). -/
  host : List HostInput
  env : Env
  /-- The events so far, oldest first (20_memory.md R67, log 13). -/
  trace : List Event
  deriving DecidableEq, Repr

/-- Why the machine stops with a fault. -/
inductive Fault where
  /-- Raised by `step` alone, in a state that no run reaches: a command is in the middle (`phase` is RUN, WAIT_IRQ,
  RST_HIGH or RST_SETTLE) and `rst_n` is not low, though only a falling `rst_n` leaves the machine there between
  two steps. Safe: no behaviour of the hardware is lost (log 12). -/
  | sequencerLost
  deriving DecidableEq, Repr

/-- Why the machine refuses an instruction. -/
inductive Refusal where
  /-- Raised by `exec` alone, for an instruction that has no meaning yet. Safe: nothing is claimed of it. -/
  | notModelled (mnemonic : String)
  deriving DecidableEq, Repr

/-- The value registers of a Reading after core reset (10_state.md R54): `rd_den` is 1, the others 0. -/
def ReadingVal.atReset : ReadingVal :=
  { station := 0, kind := 0, raw := 0, num := 0, den := 1, wspd := 0, wdir := 0, batt := false }

/-- Hop and sync state after core reset (10_state.md R54): SEARCHING, everything else 0. -/
def Sync.atReset : Sync :=
  { hopIndex := 0, hopChan := 0, hopFreq := 0, locked := false, cb := 0, lastGood := 0, lastHop := 0
    hpOutcome := .timeout, shouldHop := false }

/-- The state of a machine of configuration `c` right after core reset (10_state.md R54), among the given
inputs. `irq_prev` is 0 by choice (DESIGN CHOICE, log 9). -/
def State.atReset (c : Config) (host : List HostInput) (env : Env) (trace : List Event) : State :=
  { cfg := c
    phase := .idle
    chk := { crc := c.crcInit, crcOk := false }
    buf := { raw := List.replicate c.frameLen 0, dec := List.replicate c.frameLen 0 }
    rd := { val := ReadingVal.atReset, valid := false, nfts := false }
    sync := Sync.atReset
    drv := { mir := c.mirReset, rxTimedOut := false, rssiRaw := 0, devRst := false, irqPrev := false }
    flt := { fault := false, errAddr := 0, errRw := false }
    resp := none
    rstIn := none
    host := host
    env := env
    trace := trace }

/-- The inputs of a run of which nothing is known: everything is free (log 4 to 8). -/
def Env.free : Env :=
  { time := Config.timeAtReset, busScript := [], busDraws := 0, lagScript := [], lagDraws := 0, irqScript := [] }

/-- The machine right after reset (10_state.md R54, 70_reset_and_hazards.md R310). -/
def State.reset : State := State.atReset Config.build [] Env.free []

/-- The internal byte arrays have the lengths the configuration gives them (10_state.md R27, R28, R46): their one
canonical form. -/
abbrev Memory.wf (s : State) : Prop :=
  s.buf.raw.length = s.cfg.frameLen ∧ s.buf.dec.length = s.cfg.frameLen ∧ s.drv.mir.length = s.cfg.slots

end Sys2Proof.Machine
end

