-- ==== Sys2Proof/Machine/Ops.lean ====
section
/-! DEFINITION. The named operations every meaning is built from: ending a command, taking a bus error, core
reset, the five sequencer events of 20_memory.md R67, sampling time, and the byte arrays. -/

namespace Sys2Proof.Machine

/-- How a piece of a command ends: it goes on with a value, or the command has stopped, in the state given.
A command stops because a bus transaction failed (60_exceptions.md R278), because `rst_n` fell
(70_reset_and_hazards.md R310), or because it waits in the RSSI poll (45_rssi.md R247). -/
inductive Res (α : Type) where
  | ok (a : α) (s : State)
  | stop (s : State)

/-- Program order (00_scope.md R10): the next piece begins when this one has ended, and a stopped command
performs no later piece. -/
def Res.andThen {α β : Type} (r : Res α) (f : α → State → Res β) : Res β :=
  match r with
  | .ok a s => f a s
  | .stop s => .stop s

/-! ### Ending a command -/

/-- `respond(status, result)` (30_encoding.md R95). -/
def respond (st : Status) (result : Word) (s : State) : State :=
  { s with phase := .idle, resp := some { status := st, result := result } }

/-- A refusal: it changes no state and its result is 0 (30_encoding.md R95, 60_exceptions.md R280). -/
def refuse (st : Status) (s : State) : State := respond st 0 s

/-- A command that `rst_n` has cut gives no response (70_reset_and_hazards.md R310, log 11): the state `s` in which it
would answer stays, and `answered` is what answering leaves. -/
def answerUnlessCut (s answered : State) : State := if s.rstIn = some 0 then s else answered

/-- The end of a command that ran: `OK` with its result, or the state it stopped in. -/
def Res.finish (r : Res Word) : State :=
  match r with
  | .ok v s => answerUnlessCut s (respond .ok v s)
  | .stop s => s

/-- The judging order of a legal command other than `NOP` and `RD` (30_encoding.md R96): the fault state, then the
argument, then execution. -/
def judge (s : State) (argOk : Bool) (run : State) : State :=
  if s.flt.fault then refuse .errFault s else if argOk then run else refuse .errArg s

/-- The judging order of `NOP` and `RD`, which the fault state does not refuse (30_encoding.md R96,
60_exceptions.md R279). -/
def judgeInFault (s : State) (argOk : Bool) (run : State) : State :=
  if argOk then run else refuse .errArg s

/-! ### Taking a bus error, and the way out of the fault state -/

/-- `raise BusError(a, rw)` (60_exceptions.md R278): the one event that changes the mode of operation (R285). -/
def raiseBusError (a : Byte) (isRead : Bool) (s : State) : State :=
  respond .errBus ((BitVec.ofBool isRead ++ a).setWidth 32)
    { s with flt := { fault := true, errAddr := a, errRw := isRead } }

/-- Core reset (70_reset_and_hazards.md R310, R311), the only exit from the fault state (60_exceptions.md R286):
every register at its reset value, no bus transaction, no trace event, no response; the inputs go on. -/
def coreReset (s : State) : State := State.atReset s.cfg s.host s.env s.trace

/-! ### The environment -/

/-- The device's next answer: scripted, or free (20_memory.md R66, log 4). -/
def Env.nextAnswer (e : Env) : BusAnswer :=
  match e.busScript with
  | a :: _ => a
  | [] => Config.busAnswer e.busDraws

/-- The inputs after the device has given its next answer, which took its ticks (70_reset_and_hazards.md R331). -/
def Env.afterAnswer (e : Env) : Env :=
  match e.busScript with
  | a :: rest => { e with busScript := rest, time := e.time + a.ticks }
  | [] => { e with busDraws := e.busDraws + 1, time := e.time + (Config.busAnswer e.busDraws).ticks }

/-- The inputs after the ticks that pass before a sample of `now` (70_reset_and_hazards.md R331, log 6). -/
def Env.afterLag (e : Env) : Env :=
  match e.lagScript with
  | n :: rest => { e with lagScript := rest, time := e.time + n }
  | [] => { e with lagDraws := e.lagDraws + 1, time := e.time + Config.lag e.lagDraws }

/-- `now = T mod 2^32` (10_state.md R47). -/
def Env.now (e : Env) : Word := BitVec.ofNat 32 e.time

/-- Some ticks pass. -/
def Env.pass (e : Env) (ticks : Nat) : Env := { e with time := e.time + ticks }

/-- The level of `irq` at a tick: scripted, or free (10_state.md R49, log 7). -/
def Env.irqLevel (e : Env) (t : Nat) : Bool :=
  match e.irqScript.find? (fun p => decide (p.start ≤ t) && decide (t < p.stop)) with
  | some p => p.level
  | none => Config.irqAt t

/-- The state in which a sample of `now` is taken: the lag before it has passed, nothing else has changed. -/
def State.sampling (s : State) : State := { s with env := s.env.afterLag }

/-- Elapsed time between two samples (10_state.md R47): subtraction modulo 2^32. -/
def elapsed (t since : Word) : Word := t - since

/-! ### Sequencer events -/

/-- Perform an event unless `rst_n` is low, in which case the command is cut where it stands
(70_reset_and_hazards.md R310, log 11). -/
def unlessReset {α : Type} (s : State) (r : Res α) : Res α :=
  if s.rstIn = some 0 then .stop s else r

/-- An event has happened: it is in the trace, the inputs have moved on, and `rst_n` is one point nearer. -/
def State.passEvent (s : State) (ev : Event) (env : Env) : State :=
  { s with env := env, trace := s.trace ++ [ev], rstIn := s.rstIn.map Nat.pred }

/-- A transaction has been issued: a point of its own, before its answer (log 11). -/
def State.issue (s : State) : State := { s with rstIn := s.rstIn.map Nat.pred }

/-- The state after a `BusRead(a)` was answered, before its failure is raised. -/
def State.afterRead (s : State) (a : Byte) : State :=
  s.issue.passEvent (.read a (if s.env.nextAnswer.ok then some s.env.nextAnswer.data else none)) s.env.afterAnswer

/-- The state after a `BusWrite(a, v)` was answered, before its failure is raised. -/
def State.afterWrite (s : State) (a v : Byte) : State :=
  s.issue.passEvent (.write a v s.env.nextAnswer.ok) s.env.afterAnswer

/-- The state in which `rst_n` falls on an issued transaction: it is in the trace without an answer (log 11). -/
def State.cutInFlight (s : State) (ev : Event) : State := s.passEvent ev s.env

/-- One bus transaction (20_memory.md R64, R65): cut before it is issued, cut in flight, answered with success, or
answered with failure, which is raised unless `rst_n` falls with the answer. -/
def transact {α : Type} (a : Byte) (isRead : Bool) (cut : Event) (value : α) (answered s : State) : Res α :=
  unlessReset s
    (if s.rstIn = some 1 then .stop (s.cutInFlight cut)
     else if s.env.nextAnswer.ok then .ok value answered
     else .stop (answerUnlessCut answered (raiseBusError a isRead answered)))

/-- `BusRead(a)` (20_memory.md R64). -/
def busRead (a : Byte) (s : State) : Res Byte :=
  transact a true (.readCut a) s.env.nextAnswer.data (s.afterRead a) s

/-- `BusWrite(a, v)` (20_memory.md R65). -/
def busWrite (a v : Byte) (s : State) : Res Unit :=
  transact a false (.writeCut a v) () (s.afterWrite a v) s

/-- The sequencer enters a phase (10_state.md R24). -/
def State.enter (s : State) (p : Phase) : State := { s with phase := p }

/-- `dev_rst <- level; trace RST(level)`, and the phase the sequencer enters (44_transceiver.md R228). -/
def driveReset (level : Bool) (p : Phase) (s : State) : Res Unit :=
  unlessReset s
    (.ok () { s.passEvent (.rst level) s.env with phase := p, drv := { s.drv with devRst := level } })

/-- `Delay(n)` (00_scope.md R9, 20_memory.md R67). -/
def delay (ticks : Nat) (s : State) : Res Unit :=
  unlessReset s (.ok () (s.passEvent (.delay ticks) (s.env.pass ticks)))

/-- How a bounded wait ended: the ticks it lasted, whether the edge came, and what `irq_prev` then holds. -/
structure WaitEnd where
  ticks : Nat
  fired : Bool
  irqPrev : Bool
  deriving DecidableEq, Repr

/-- The ticks of the wait after its first one (44_transceiver.md R222): `left` more ticks until the timeout, at
true time `t`, `e` ticks after the wait began. The edge is looked at before the timeout, so it wins a tie. -/
def waitTicks (env : Env) : (left e : Nat) → (t : Nat) → (prev : Bool) → WaitEnd
  | 0, e, _, prev => { ticks := e, fired := false, irqPrev := prev }
  | left + 1, e, t, prev =>
    if !prev && env.irqLevel (t + 1) then { ticks := e + 1, fired := true, irqPrev := prev }
    else waitTicks env left (e + 1) (t + 1) (env.irqLevel (t + 1))

/-- The whole wait, begun at the present true time: `irq_prev` is loaded from the line, and a timeout of 0 ends it
at once (44_transceiver.md R222). -/
def waitEnd (env : Env) (timeout : Nat) : WaitEnd :=
  waitTicks env timeout 0 env.time (env.irqLevel env.time)

/-- `wait(timeout)` (44_transceiver.md R222): whether the interrupt fired. The phase is WAIT_IRQ in the wait, and RUN after
it (DESIGN CHOICE, log 20). -/
def waitIrq (timeout : Nat) (s : State) : Res Bool :=
  unlessReset (s.enter .waitIrq)
    (let w := waitEnd s.env timeout
     .ok w.fired { s.passEvent (.wait w.ticks w.fired) (s.env.pass w.ticks) with
                   phase := .run, drv := { s.drv with irqPrev := w.irqPrev } })

/-! ### The byte arrays (20_memory.md R63) -/

/-- `raw[i]`. -/
def State.rawAt (s : State) (i : Nat) : Byte := s.buf.raw.getD i 0

/-- `dec[i]`. -/
def State.decAt (s : State) (i : Nat) : Byte := s.buf.dec.getD i 0

/-- `mir[k]`. -/
def State.mirAt (s : State) (k : Nat) : Byte := s.drv.mir.getD k 0

/-- `raw[i] <- b`. -/
def State.setRaw (s : State) (i : Nat) (b : Byte) : State :=
  { s with buf := { s.buf with raw := s.buf.raw.set i b } }

/-- `mir[k] <- b`. -/
def State.setMir (s : State) (k : Nat) (b : Byte) : State :=
  { s with drv := { s.drv with mir := s.drv.mir.set k b } }

end Sys2Proof.Machine
end

