-- ==== Sys2Proof/Machine/Flags.lean ====
section
/-! DEFINITION. Every flag computation and every packing of flags into a result (10_state.md R52, R53). -/

namespace Sys2Proof.Machine

/-- A bit of a packed word: the flag at bit `i`. -/
def flagAt (b : Bool) (i : Nat) : Word := (BitVec.ofBool b).setWidth 32 <<< i

/-- `crc_ok`: the CRC of a whole frame is the valid residue (40_checksum.md R127, R128). -/
def residueOk (c : Config) (crc : Half) : Bool := crc == c.residue

/-- The station compare on all four bits (41_bitrev_codec.md R146). -/
def addressed (c : Config) (byte0 : Byte) : Bool := byte0.extractLsb' 0 4 == c.stationFilter

/-- `sat_inc` (42_hop_sync.md R173). -/
def satInc (x : Byte) : Byte := if x = 255 then 255 else x + 1

/-- The resync trigger's test (42_hop_sync.md R177). -/
def resyncDue (c : Config) (sy : Sync) : Bool := sy.locked && decide (c.badThreshold ≤ sy.cb.toNat)

/-- The paced hop verdict of SEARCHING (42_hop_sync.md R178). -/
def paced (c : Config) (t lastHop : Word) : Bool := decide (c.dwell.toNat ≤ (elapsed t lastHop).toNat)

/-- The code of `hp_outcome` (10_state.md R44). -/
def HpOutcome.code : HpOutcome → BitVec 2
  | .timeout => 0
  | .corrupt => 1
  | .wrongStation => 2
  | .good => 3

/-- The code of a status (30_encoding.md R95). -/
def Status.code : Status → BitVec 4
  | .ok => 0
  | .errIllegal => 1
  | .errArg => 2
  | .errBus => 3
  | .errFault => 4

/-- `STATUS_REG` (10_state.md R53). -/
def statusReg (s : State) : Word :=
  flagAt s.flt.fault 0 ||| flagAt s.sync.locked 1 ||| flagAt s.sync.shouldHop 2 ||| flagAt s.rd.valid 3 |||
    flagAt s.rd.val.batt 4 ||| flagAt s.chk.crcOk 5 ||| flagAt s.rd.nfts 6 ||| flagAt s.drv.rxTimedOut 7 |||
    flagAt s.drv.devRst 8 ||| (s.sync.hpOutcome.code.setWidth 32 <<< 9)

/-- `hp_result` (42_hop_sync.md R171). -/
def hpResult (s : State) : Word :=
  (s.sync.cb.setWidth 32 <<< 5) ||| flagAt s.sync.locked 4 ||| (s.sync.hpOutcome.code.setWidth 32 <<< 2) |||
    flagAt s.rd.valid 1 ||| flagAt s.sync.shouldHop 0

/-- The result of `CRC.FRAME` (40_checksum.md R127): `crc_ok` in bit 16, `crc` below. -/
def crcFrameResult (s : State) : Word := flagAt s.chk.crcOk 16 ||| s.chk.crc.setWidth 32

/-- The result of `RECEIVE.*` (44_transceiver.md R221): `rssi_raw` in bits 15:8, `rx_timed_out` in bit 0. -/
def receiveResult (s : State) : Word := (s.drv.rssiRaw.setWidth 32 <<< 8) ||| flagAt s.drv.rxTimedOut 0

end Sys2Proof.Machine
end

