-- ==== Sys2Proof/Machine/Operands.lean ====
section
/-! DEFINITION. The operands a command takes from the state: the host register map of `RD` (10_state.md R53), the
hop a command would take, and the argument tests that registers enter (30_encoding.md R98). -/

namespace Sys2Proof.Machine

/-- The value of register `r` for every number of the map but 0x10 (`NOW`), fields packed and the other bits zero
(10_state.md R53). The number is in range where it is used (47_host_access.md R266). -/
def readReg (s : State) (r : Byte) : Word :=
  match r.toNat with
  | 0x00 => statusReg s
  | 0x01 => s.chk.crc.setWidth 32
  | 0x02 => s.sync.hopIndex.setWidth 32
  | 0x03 => s.sync.hopChan.setWidth 32
  | 0x04 => s.sync.hopFreq
  | 0x05 => s.cfg.dwell
  | 0x06 => s.sync.cb.setWidth 32
  | 0x07 => s.sync.lastGood
  | 0x08 => s.sync.lastHop
  | 0x09 => (s.cfg.stationReg.setWidth 32 <<< 8) ||| s.cfg.stationFilter.setWidth 32
  | 0x0A => (s.rd.val.kind.setWidth 32 <<< 4) ||| s.rd.val.station.setWidth 32
  | 0x0B => s.rd.val.raw.setWidth 32
  | 0x0C => (s.rd.val.den.setWidth 32 <<< 16) ||| s.rd.val.num.setWidth 32
  | 0x0D => (s.rd.val.wdir.setWidth 32 <<< 8) ||| s.rd.val.wspd.setWidth 32
  | 0x0E => s.drv.rssiRaw.setWidth 32
  | 0x0F => flagAt s.flt.errRw 8 ||| s.flt.errAddr.setWidth 32
  | n =>
    if n < 0x30 then (s.rawAt (n - 0x20)).setWidth 32
    else if n < 0x40 then (s.decAt (n - 0x30)).setWidth 32
    else (s.mirAt (n - 0x40)).setWidth 32

/-- `P_HOP[hop_index]`: the channel index of the hop the machine would take now (43_channel_plan.md R193). -/
def State.nextChan (s : State) : Nat := s.cfg.hopAt s.sync.hopIndex.toNat

/-- `P_FREQ[P_HOP[hop_index]]`: the carrier of the hop the machine would take now (43_channel_plan.md R193). -/
def State.nextFreq (s : State) : Word := s.cfg.freqAt s.nextChan

/-- The argument test of `SET_FREQ.H` (30_encoding.md R98). -/
def hopFreqInRange (s : State) : Bool := s.cfg.freqInRange s.sync.hopFreq

/-- The argument test of `LOOP.INIT` and `LOOP.STEP` (30_encoding.md R98, 46_receive_loop.md R256, R257). -/
def nextFreqInRange (s : State) : Bool := s.cfg.freqInRange s.nextFreq

end Sys2Proof.Machine
end

