-- ==== Sys2Proof/Machine/HostAccess.lean ====
section
/-! DEFINITION. The host access commands `NOP` and `RD` (47_host_access.md). -/

namespace Sys2Proof.Machine

/-- `NOP` (47_host_access.md R265). -/
def execNop (s : State) : Host.Outcome State Fault Refusal :=
  .next (judgeInFault s true (respond .ok 0 s))

/-- What `RD r` does with a number of the map (47_host_access.md R266): 0x10 takes a sample of `now`. -/
def readHostReg (r : Byte) (s : State) : State :=
  if r = 0x10 then respond .ok s.sampling.env.now s.sampling else respond .ok (readReg s r) s

/-- `RD r` (47_host_access.md R266). -/
def execRd (r : Byte) (s : State) : Host.Outcome State Fault Refusal :=
  .next (judgeInFault s (s.cfg.rdInRange r) (readHostReg r s))

end Sys2Proof.Machine
end

