-- ==== Sys2Proof/Syntax.lean ====
section
/-! DEFINITION. The commands of the CORE: one constructor per row of spec/opcode_table.json (30_encoding.md R97). -/

namespace Sys2Proof

/-- A command with its operands (30_encoding.md R93, R94); the rule of each row stands beside it. -/
inductive Instr where
  /-- `NOP`, R265. -/
  | nop
  /-- `RD r`, R266. -/
  | rd (r : Byte)
  /-- `CRC.TBL b`, R124. -/
  | crcTbl (b : Byte)
  /-- `CRC.INIT h`, R125. -/
  | crcInit (h : Half)
  /-- `CRC.BYTE b`, R126. -/
  | crcByte (b : Byte)
  /-- `CRC.FRAME`, R127. -/
  | crcFrame
  /-- `BITREV b`, R143. -/
  | bitrev (b : Byte)
  /-- `FRAME.LD i, b`, R144. -/
  | frameLd (i : BitVec 4) (b : Byte)
  /-- `FRAME.NORM`, R145. -/
  | frameNorm
  /-- `DECODE`, R147. -/
  | decodeFrame
  /-- `HPKT.I f`, R171. -/
  | hpktI (f : Bool)
  /-- `HPKT.R`, R172. -/
  | hpktR
  /-- `PLAN.FREQ b`, R191. -/
  | planFreq (b : Byte)
  /-- `PLAN.HOP b`, R192. -/
  | planHop (b : Byte)
  /-- `NEXT_HOP`, R193. -/
  | nextHop
  /-- `SYNC_REGS`, R214. -/
  | syncRegs
  /-- `SET_FREQ.I w`, R215. -/
  | setFreqI (w : Word)
  /-- `SET_FREQ.H`, R216. -/
  | setFreqH
  /-- `RECEIVE.I w`, R221. -/
  | receiveI (w : Word)
  /-- `RECEIVE.D`, R223. -/
  | receiveD
  /-- `DEV_RESET`, R228. -/
  | devReset
  /-- `READ_RSSI f`, R246. -/
  | readRssi (f : Bool)
  /-- `LOOP.INIT`, R256. -/
  | loopInit
  /-- `LOOP.STEP`, R257. -/
  | loopStep
  deriving DecidableEq, Repr

end Sys2Proof
end

