-- ==== Sys2Proof/Decode.lean ====
section
/-! DEFINITION. The command word: its decoder, total and rejecting by name, and its encoder (30_encoding.md R92
to R97). -/

namespace Sys2Proof

/-- Why a word is no command (30_encoding.md R97). -/
inductive DecodeReject where
  /-- The opcode is not assigned. -/
  | unassignedOpcode (op : Byte)
  /-- The opcode is assigned and a reserved bit of `arg` is set. -/
  | reservedBits (op : Byte)
  deriving DecidableEq, Repr

/-- `op = cmd[39:32]` (30_encoding.md R92). -/
def opOf (w : Command) : Byte := w.extractLsb' 32 8

/-- `arg = cmd[31:0]` (30_encoding.md R92). -/
def argOf (w : Command) : Word := w.extractLsb' 0 32

/-- Accept `i` when the reserved part of `arg`, its bits from `used` up, is zero (30_encoding.md R93). -/
def unlessReserved (w : Command) (used : Nat) (i : Instr) : Except DecodeReject Instr :=
  if argOf w >>> used = 0 then .ok i else .error (.reservedBits (opOf w))

/-- Format Z. -/
def formatZ (w : Command) (i : Instr) : Except DecodeReject Instr := unlessReserved w 0 i

/-- Format F: `f = arg[0]`. -/
def formatF (w : Command) (i : Bool → Instr) : Except DecodeReject Instr :=
  unlessReserved w 1 (i ((argOf w).getLsbD 0))

/-- Format B: `b = arg[7:0]`. -/
def formatB (w : Command) (i : Byte → Instr) : Except DecodeReject Instr :=
  unlessReserved w 8 (i ((argOf w).extractLsb' 0 8))

/-- Format H: `h = arg[15:0]`. -/
def formatH (w : Command) (i : Half → Instr) : Except DecodeReject Instr :=
  unlessReserved w 16 (i ((argOf w).extractLsb' 0 16))

/-- Format IB: `i = arg[11:8]`, `b = arg[7:0]`. -/
def formatIB (w : Command) (i : BitVec 4 → Byte → Instr) : Except DecodeReject Instr :=
  unlessReserved w 12 (i ((argOf w).extractLsb' 8 4) ((argOf w).extractLsb' 0 8))

/-- Format W: `w = arg[31:0]`. -/
def formatW (w : Command) (i : Word → Instr) : Except DecodeReject Instr := unlessReserved w 32 (i (argOf w))

/-- The command a word is, or why it is none: the opcode map of 30_encoding.md R97. -/
def decode (w : Command) : Except DecodeReject Instr :=
  match (opOf w).toNat with
  | 0x00 => formatZ w .nop
  | 0x01 => formatB w .rd
  | 0x10 => formatB w .crcTbl
  | 0x11 => formatH w .crcInit
  | 0x12 => formatB w .crcByte
  | 0x13 => formatZ w .crcFrame
  | 0x20 => formatB w .bitrev
  | 0x21 => formatIB w .frameLd
  | 0x22 => formatZ w .frameNorm
  | 0x23 => formatZ w .decodeFrame
  | 0x30 => formatF w .hpktI
  | 0x31 => formatZ w .hpktR
  | 0x40 => formatB w .planFreq
  | 0x41 => formatB w .planHop
  | 0x42 => formatZ w .nextHop
  | 0x50 => formatZ w .syncRegs
  | 0x51 => formatW w .setFreqI
  | 0x52 => formatZ w .setFreqH
  | 0x53 => formatW w .receiveI
  | 0x54 => formatZ w .receiveD
  | 0x55 => formatZ w .devReset
  | 0x60 => formatF w .readRssi
  | 0x70 => formatZ w .loopInit
  | 0x71 => formatZ w .loopStep
  | _ => .error (.unassignedOpcode (opOf w))

/-- The word of an opcode and an argument (30_encoding.md R92). -/
def wordOf (op : Byte) (arg : Word) : Command := op ++ arg

/-- The word of a command (30_encoding.md R93, R97). -/
def encode : Instr → Command
  | .nop => wordOf 0x00 0
  | .rd r => wordOf 0x01 (r.setWidth 32)
  | .crcTbl b => wordOf 0x10 (b.setWidth 32)
  | .crcInit h => wordOf 0x11 (h.setWidth 32)
  | .crcByte b => wordOf 0x12 (b.setWidth 32)
  | .crcFrame => wordOf 0x13 0
  | .bitrev b => wordOf 0x20 (b.setWidth 32)
  | .frameLd i b => wordOf 0x21 ((i ++ b).setWidth 32)
  | .frameNorm => wordOf 0x22 0
  | .decodeFrame => wordOf 0x23 0
  | .hpktI f => wordOf 0x30 ((BitVec.ofBool f).setWidth 32)
  | .hpktR => wordOf 0x31 0
  | .planFreq b => wordOf 0x40 (b.setWidth 32)
  | .planHop b => wordOf 0x41 (b.setWidth 32)
  | .nextHop => wordOf 0x42 0
  | .syncRegs => wordOf 0x50 0
  | .setFreqI w => wordOf 0x51 w
  | .setFreqH => wordOf 0x52 0
  | .receiveI w => wordOf 0x53 w
  | .receiveD => wordOf 0x54 0
  | .devReset => wordOf 0x55 0
  | .readRssi f => wordOf 0x60 ((BitVec.ofBool f).setWidth 32)
  | .loopInit => wordOf 0x70 0
  | .loopStep => wordOf 0x71 0

/-- What the decoder reads from the word `w` of `nbits` bits, bit 0 least significant, zeros above `nbits`.
Every command is one 40-bit word (30_encoding.md R92), so a set bit above bit 39 makes it none. -/
def decodeTableWord (nbits w : Nat) : Option Instr :=
  if w % 2 ^ nbits < 2 ^ 40 then (decode (BitVec.ofNat 40 (w % 2 ^ nbits))).toOption else none

/-- A row of the opcode table as match and mask (30_encoding.md R97). -/
structure TableRow where
  fixed : Command
  mask : Command
  deriving DecidableEq, Repr

/-- A word is the command of a row exactly when it holds the row's bits under its mask (30_encoding.md R97). -/
def TableRow.holds (r : TableRow) (w : Command) : Bool := w &&& r.mask == r.fixed

/-- The row of a command in the table of 30_encoding.md R97. -/
def Instr.row : Instr → TableRow
  | .nop => { fixed := 0x0000000000, mask := 0xFFFFFFFFFF }
  | .rd _ => { fixed := 0x0100000000, mask := 0xFFFFFFFF00 }
  | .crcTbl _ => { fixed := 0x1000000000, mask := 0xFFFFFFFF00 }
  | .crcInit _ => { fixed := 0x1100000000, mask := 0xFFFFFF0000 }
  | .crcByte _ => { fixed := 0x1200000000, mask := 0xFFFFFFFF00 }
  | .crcFrame => { fixed := 0x1300000000, mask := 0xFFFFFFFFFF }
  | .bitrev _ => { fixed := 0x2000000000, mask := 0xFFFFFFFF00 }
  | .frameLd _ _ => { fixed := 0x2100000000, mask := 0xFFFFFFF000 }
  | .frameNorm => { fixed := 0x2200000000, mask := 0xFFFFFFFFFF }
  | .decodeFrame => { fixed := 0x2300000000, mask := 0xFFFFFFFFFF }
  | .hpktI _ => { fixed := 0x3000000000, mask := 0xFFFFFFFFFE }
  | .hpktR => { fixed := 0x3100000000, mask := 0xFFFFFFFFFF }
  | .planFreq _ => { fixed := 0x4000000000, mask := 0xFFFFFFFF00 }
  | .planHop _ => { fixed := 0x4100000000, mask := 0xFFFFFFFF00 }
  | .nextHop => { fixed := 0x4200000000, mask := 0xFFFFFFFFFF }
  | .syncRegs => { fixed := 0x5000000000, mask := 0xFFFFFFFFFF }
  | .setFreqI _ => { fixed := 0x5100000000, mask := 0xFF00000000 }
  | .setFreqH => { fixed := 0x5200000000, mask := 0xFFFFFFFFFF }
  | .receiveI _ => { fixed := 0x5300000000, mask := 0xFF00000000 }
  | .receiveD => { fixed := 0x5400000000, mask := 0xFFFFFFFFFF }
  | .devReset => { fixed := 0x5500000000, mask := 0xFFFFFFFFFF }
  | .readRssi _ => { fixed := 0x6000000000, mask := 0xFFFFFFFFFE }
  | .loopInit => { fixed := 0x7000000000, mask := 0xFFFFFFFFFF }
  | .loopStep => { fixed := 0x7100000000, mask := 0xFFFFFFFFFF }

/-- The rows of spec/opcode_table.json, in its order (30_encoding.md R97). -/
def opcodeTable : List TableRow :=
  [{ fixed := 0x0000000000, mask := 0xFFFFFFFFFF },
   { fixed := 0x0100000000, mask := 0xFFFFFFFF00 },
   { fixed := 0x1000000000, mask := 0xFFFFFFFF00 },
   { fixed := 0x1100000000, mask := 0xFFFFFF0000 },
   { fixed := 0x1200000000, mask := 0xFFFFFFFF00 },
   { fixed := 0x1300000000, mask := 0xFFFFFFFFFF },
   { fixed := 0x2000000000, mask := 0xFFFFFFFF00 },
   { fixed := 0x2100000000, mask := 0xFFFFFFF000 },
   { fixed := 0x2200000000, mask := 0xFFFFFFFFFF },
   { fixed := 0x2300000000, mask := 0xFFFFFFFFFF },
   { fixed := 0x3000000000, mask := 0xFFFFFFFFFE },
   { fixed := 0x3100000000, mask := 0xFFFFFFFFFF },
   { fixed := 0x4000000000, mask := 0xFFFFFFFF00 },
   { fixed := 0x4100000000, mask := 0xFFFFFFFF00 },
   { fixed := 0x4200000000, mask := 0xFFFFFFFFFF },
   { fixed := 0x5000000000, mask := 0xFFFFFFFFFF },
   { fixed := 0x5100000000, mask := 0xFF00000000 },
   { fixed := 0x5200000000, mask := 0xFFFFFFFFFF },
   { fixed := 0x5300000000, mask := 0xFF00000000 },
   { fixed := 0x5400000000, mask := 0xFFFFFFFFFF },
   { fixed := 0x5500000000, mask := 0xFFFFFFFFFF },
   { fixed := 0x6000000000, mask := 0xFFFFFFFFFE },
   { fixed := 0x7000000000, mask := 0xFFFFFFFFFF },
   { fixed := 0x7100000000, mask := 0xFFFFFFFFFF }]

end Sys2Proof
end

