-- ==== Sys2Proof/Machine/ChannelPlan.lean ====
section
/-! DEFINITION. The channel-plan frequency router (43_channel_plan.md): the procedure `next_hop` and the commands
`PLAN.FREQ`, `PLAN.HOP`, `NEXT_HOP`. -/

namespace Sys2Proof.Machine

/-- The hop at the sample `t` of `now` (43_channel_plan.md R193). -/
def takeHop (t : Word) (s : State) : State :=
  { s with
    sync := { s.sync with
      hopChan := BitVec.ofNat 8 s.nextChan
      hopFreq := s.nextFreq
      hopIndex := BitVec.ofNat 8 ((s.sync.hopIndex.toNat + 1) % s.cfg.channels)
      lastHop := t } }

/-- `next_hop` (43_channel_plan.md R193). -/
def nextHop (s : State) : State := takeHop s.sampling.env.now s.sampling

/-- `PLAN.FREQ b` (43_channel_plan.md R191). -/
def execPlanFreq (b : Byte) (s : State) : Host.Outcome State Fault Refusal :=
  .next (judge s (s.cfg.planInRange b) (respond .ok (s.cfg.freqAt b.toNat) s))

/-- `PLAN.HOP b` (43_channel_plan.md R192). -/
def execPlanHop (b : Byte) (s : State) : Host.Outcome State Fault Refusal :=
  .next (judge s (s.cfg.planInRange b) (respond .ok (BitVec.ofNat 32 (s.cfg.hopAt b.toNat)) s))

/-- `NEXT_HOP` (43_channel_plan.md R193). -/
def execNextHop (s : State) : Host.Outcome State Fault Refusal :=
  .next (judge s true (respond .ok (nextHop s).sync.hopFreq (nextHop s)))

end Sys2Proof.Machine
end

