-- ==== Sys2Proof/Machine/ChecksumEngine.lean ====
section
/-! DEFINITION. The Checksum Engine (40_checksum.md): the table, the CRC, and the commands `CRC.TBL`, `CRC.INIT`,
`CRC.BYTE`, `CRC.FRAME`. -/

namespace Sys2Proof.Machine

/-- One of the eight rounds of `build_table` (40_checksum.md R121). -/
def tableRound (p c : Half) : Half := if c.getLsbD 15 then (c <<< 1) ^^^ p else c <<< 1

/-- `build_table(p)[i]` (40_checksum.md R121): the index in the high byte, then eight rounds. -/
def tableEntry (p : Half) (i : Byte) : Half :=
  (List.range 8).foldl (fun c _ => tableRound p c) (i.setWidth 16 <<< 8)

/-- `TABLE[i]` with `TABLE = build_table(P_POLY)` (40_checksum.md R121, 20_memory.md R61). -/
def tableAt (c : Config) (i : Byte) : Half := tableEntry c.poly i

/-- `crc_step(crc, b)` (40_checksum.md R122). -/
def crcStep (c : Config) (crc : Half) (b : Byte) : Half :=
  (crc <<< 8) ^^^ tableAt c (crc.extractLsb' 8 8 ^^^ b)

/-- `checksum(init, data)` (40_checksum.md R123). -/
def checksum (c : Config) (init : Half) (data : List Byte) : Half := data.foldl (crcStep c) init

/-- The verification of the DecodedFrame (40_checksum.md R127, R128), used by `CRC.FRAME` and by the handler. -/
def verifyDec (s : State) : State :=
  let crc := checksum s.cfg s.cfg.crcInit s.buf.dec
  { s with chk := { crc := crc, crcOk := residueOk s.cfg crc } }

/-- `CRC.TBL b` (40_checksum.md R124). -/
def execCrcTbl (b : Byte) (s : State) : Host.Outcome State Fault Refusal :=
  .next (judge s true (respond .ok ((tableAt s.cfg b).setWidth 32) s))

/-- `CRC.INIT h` (40_checksum.md R125). -/
def execCrcInit (h : Half) (s : State) : Host.Outcome State Fault Refusal :=
  .next (judge s true (respond .ok (h.setWidth 32) { s with chk := { s.chk with crc := h } }))

/-- `CRC.BYTE b` (40_checksum.md R126). -/
def execCrcByte (b : Byte) (s : State) : Host.Outcome State Fault Refusal :=
  .next (judge s true
    (respond .ok ((crcStep s.cfg s.chk.crc b).setWidth 32)
      { s with chk := { s.chk with crc := crcStep s.cfg s.chk.crc b } }))

/-- `CRC.FRAME` (40_checksum.md R127). -/
def execCrcFrame (s : State) : Host.Outcome State Fault Refusal :=
  .next (judge s true (respond .ok (crcFrameResult (verifyDec s)) (verifyDec s)))

end Sys2Proof.Machine
end

