-- ==== Sys2Proof/Machine/Codec.lean ====
section
/-! DEFINITION. The bit-reversal packet decoder (41_bitrev_codec.md): bit reversal, the frame fields, the decode
table, and the commands `BITREV`, `FRAME.LD`, `FRAME.NORM`, `DECODE`. -/

namespace Sys2Proof.Machine

/-- `bitrev8(b)` (41_bitrev_codec.md R141): bit 0 is the most significant bit of the answer, bit 7 the least. -/
def bitrev8 (b : Byte) : Byte :=
  b.extractLsb' 0 1 ++ b.extractLsb' 1 1 ++ b.extractLsb' 2 1 ++ b.extractLsb' 3 1 ++
    b.extractLsb' 4 1 ++ b.extractLsb' 5 1 ++ b.extractLsb' 6 1 ++ b.extractLsb' 7 1

/-- `normalise` (41_bitrev_codec.md R142). -/
def normalise (s : State) : State := { s with buf := { s.buf with dec := s.buf.raw.map bitrev8 } }

/-- `rd_num` and `rd_den` as numbers, for a kind and the bytes `d0`, `d1` (41_bitrev_codec.md R151 to R160). -/
def decodedValue (k : SensorKinds) (kind : BitVec 4) (d0 d1 : Byte) : Nat × Nat :=
  if kind = k.supercap then (d0.toNat * 4 + (d1.extractLsb' 6 2).toNat, 100)
  else if kind = k.uv then (0, 1)
  else if kind = k.rainRate then
    if d0 = 0xFF then (0, 1)
    else if d1.getLsbD 6 then ((d1.extractLsb' 4 2).toNat * 250 + d0.toNat, 16)
    else ((d1.extractLsb' 4 2).toNat * 250 + d0.toNat, 1)
  else if kind = k.solar then (0, 1)
  else if kind = k.light then (d0.toNat * 4 + (d1.extractLsb' 6 2).toNat, 1)
  else if kind = k.temp then (d0.toNat * 256 + d1.toNat, 160)
  else if kind = k.gust then (d0.toNat, 1)
  else if kind = k.humidity then ((d1 &&& 0xF0).toNat * 16 + d0.toNat, 10)
  else if kind = k.rainClick then ((d0 &&& 0x7F).toNat, 1)
  else (0, 1)

/-- `decode_fields(dec)` (41_bitrev_codec.md R148, R161). -/
def decodeFields (k : SensorKinds) (dec : List Byte) : ReadingVal :=
  let byte (i : Nat) : Byte := dec.getD i 0
  let kind : BitVec 4 := (byte 0).extractLsb' 4 4
  let value := decodedValue k kind (byte 3) (byte 4)
  { station := (byte 0).extractLsb' 0 4
    kind := kind
    raw := byte 3 ++ byte 4 ++ byte 5
    num := BitVec.ofNat 16 value.1
    den := BitVec.ofNat 8 value.2
    wspd := byte 1
    wdir := byte 2
    batt := (byte 0).getLsbD 3 }

/-- `decoded_value` of a Reading, an exact rational (41_bitrev_codec.md R150). -/
def ReadingVal.decoded (v : ReadingVal) : ℚ := (v.num.toNat : ℚ) / (v.den.toNat : ℚ)

/-- `wind_speed` of a Reading (30_encoding.md R102, 41_bitrev_codec.md R148). -/
def ReadingVal.windSpeed (v : ReadingVal) : Nat := v.wspd.toNat

/-- `wind_direction_degrees` of a Reading, an exact rational (30_encoding.md R103, 41_bitrev_codec.md R148). -/
def ReadingVal.windDegrees (v : ReadingVal) : ℚ := (v.wdir.toNat : ℚ) * 360 / 255

/-- What `DECODE` does with the Reading registers (41_bitrev_codec.md R147): `rd_valid` is always cleared, and a
frame for another station leaves the value registers as they are. -/
def decodeReading (s : State) : State :=
  if addressed s.cfg (s.decAt 0) then
    { s with rd := { val := decodeFields s.cfg.kinds s.buf.dec, valid := false, nfts := false } }
  else { s with rd := { s.rd with valid := false, nfts := true } }

/-- `BITREV b` (41_bitrev_codec.md R143). -/
def execBitrev (b : Byte) (s : State) : Host.Outcome State Fault Refusal :=
  .next (judge s true (respond .ok ((bitrev8 b).setWidth 32) s))

/-- `FRAME.LD i, b` (41_bitrev_codec.md R144). -/
def execFrameLd (i : BitVec 4) (b : Byte) (s : State) : Host.Outcome State Fault Refusal :=
  .next (judge s (s.cfg.frameIndexInRange i) (respond .ok 0 (s.setRaw i.toNat b)))

/-- `FRAME.NORM` (41_bitrev_codec.md R145). -/
def execFrameNorm (s : State) : Host.Outcome State Fault Refusal :=
  .next (judge s true (respond .ok 0 (normalise s)))

/-- `DECODE` (41_bitrev_codec.md R147): the result is 1 for a frame that is not for this station. -/
def execDecodeFrame (s : State) : Host.Outcome State Fault Refusal :=
  .next (judge s true (respond .ok (flagAt (decodeReading s).rd.nfts 0) (decodeReading s)))

end Sys2Proof.Machine
end

