-- ==== Sys2Proof/Machine/Handler.lean ====
section
/-! DEFINITION. The hop-sequence state machine (42_hop_sync.md): the six steps of the decision algorithm, the
procedure `handle`, and the commands `HPKT.I`, `HPKT.R`. -/

namespace Sys2Proof.Machine

/-- Step 1, timeout (42_hop_sync.md R174). -/
def handleTimeout (s : State) : State :=
  { s with
    rd := { s.rd with valid := false, nfts := false }
    sync := { s.sync with cb := satInc s.sync.cb, hpOutcome := .timeout } }

/-- Step 2 on a frame whose verification failed (42_hop_sync.md R173). -/
def handleCorrupt (s : State) : State :=
  { s with
    rd := { s.rd with valid := false, nfts := false }
    sync := { s.sync with cb := satInc s.sync.cb, hpOutcome := .corrupt } }

/-- Step 3, wrong station (42_hop_sync.md R175): no counting, no hop, no reading. -/
def handleWrongStation (s : State) : State :=
  { s with
    rd := { s.rd with valid := false, nfts := true }
    sync := { s.sync with hpOutcome := .wrongStation, shouldHop := false } }

/-- Step 4, good frame, at the sample `t` of `now` (42_hop_sync.md R176). -/
def handleGood (t : Word) (s : State) : State :=
  { s with
    rd := { val := decodeFields s.cfg.kinds s.buf.dec, valid := true, nfts := false }
    sync := { s.sync with cb := 0, locked := true, lastGood := t, hpOutcome := .good } }

/-- Step 5, resync trigger (42_hop_sync.md R177). -/
def resync (s : State) : State :=
  if resyncDue s.cfg s.sync then { s with sync := { s.sync with locked := false, cb := 0 } } else s

/-- Step 6, hop decision (42_hop_sync.md R178). -/
def hopVerdict (t : Word) (s : State) : State :=
  { s with sync := { s.sync with shouldHop := s.sync.locked || paced s.cfg t s.sync.lastHop } }

/-- Steps 5 and 6, in that order. -/
def conclude (t : Word) (s : State) : State := hopVerdict t (resync s)

/-- `handle(timed_out)` after its sample `t` of `now` (42_hop_sync.md R179). -/
def handleAt (timedOut : Bool) (t : Word) (s : State) : State :=
  if timedOut then conclude t (handleTimeout s)
  else
    let v := verifyDec (normalise s)
    if v.chk.crcOk then
      if addressed v.cfg (v.decAt 0) then conclude t (handleGood t v) else handleWrongStation v
    else conclude t (handleCorrupt v)

/-- `handle(timed_out)` (42_hop_sync.md R179). -/
def handle (timedOut : Bool) (s : State) : State := handleAt timedOut s.sampling.env.now s.sampling

/-- `HPKT.I f` (42_hop_sync.md R171). -/
def execHpktI (f : Bool) (s : State) : Host.Outcome State Fault Refusal :=
  .next (judge s true (respond .ok (hpResult (handle f s)) (handle f s)))

/-- `HPKT.R` (42_hop_sync.md R172). -/
def execHpktR (s : State) : Host.Outcome State Fault Refusal :=
  .next (judge s true (respond .ok (hpResult (handle s.drv.rxTimedOut s)) (handle s.drv.rxTimedOut s)))

end Sys2Proof.Machine
end

