-- ==== Sys2Proof/Machine/Rssi.lean ====
section
/-! DEFINITION. The RSSI sampler (45_rssi.md): the poll, the procedure `sample_rssi`, and `READ_RSSI`. -/

namespace Sys2Proof.Machine

/-- One read of the ready-bit poll (45_rssi.md R247), for the command that `k` names. When no ready bit is set the
command stays in the poll: the next step reads again (log 10). The phase after the poll is RUN (DESIGN CHOICE,
log 20). -/
def pollOnce (k : Resume) (s : State) : Res Unit :=
  (busRead s.cfg.addrRssiCfg (s.enter (.pollRssi k))).andThen fun v s =>
    if v &&& s.cfg.rssiDone ≠ 0 then .ok () (s.enter .run) else .stop s

/-- The read of the raw value (45_rssi.md R249). -/
def readRssiValue (s : State) : Res Byte := busRead s.cfg.addrRssiVal s

/-- `sample_rssi(trigger)` (45_rssi.md R249). -/
def sampleRssi (trigger : Bool) (k : Resume) (s : State) : Res Byte :=
  if trigger then
    (busWrite s.cfg.addrRssiCfg s.cfg.rssiStart s).andThen fun _ s =>
    (pollOnce k s).andThen fun _ s => readRssiValue s
  else readRssiValue s

/-- The RSSI in dBm that a raw byte stands for, an exact rational (30_encoding.md R108, 45_rssi.md R248). -/
def rssiDbm (raw : Byte) : ℚ := -(raw.toNat : ℚ) / 2

/-- `rssi_raw <- v` (10_state.md R48). -/
def State.setRssi (s : State) (v : Byte) : State := { s with drv := { s.drv with rssiRaw := v } }

/-- `READ_RSSI` once the raw value is read (45_rssi.md R246). -/
def storeRssi (v : Byte) (s : State) : Res Word := .ok (v.setWidth 32) (s.setRssi v)

/-- `READ_RSSI f` (45_rssi.md R246). -/
def execReadRssi (f : Bool) (s : State) : Host.Outcome State Fault Refusal :=
  .next (judge s true ((sampleRssi f .readRssi s).andThen storeRssi).finish)

end Sys2Proof.Machine
end

