-- ==== Sys2Proof/Machine/Transceiver.lean ====
section
/-! DEFINITION. The transceiver register sequencer (44_transceiver.md): the push, frequency programming, receive with
timeout, device reset, and the commands `SYNC_REGS`, `SET_FREQ.*`, `RECEIVE.*`, `DEV_RESET`. -/

namespace Sys2Proof.Machine

/-- `set_mode(m)` (44_transceiver.md R211). -/
def setMode (m : Byte) (s : State) : State := s.setMir 0 (s.cfg.withMode (s.mirAt 0) m)

/-- Write the slots of a list, in its order, each to its device address. -/
def writeSlots : List Nat → State → Res Unit
  | [], s => .ok () s
  | k :: ks, s => (busWrite (s.cfg.addrAt k) (s.mirAt k) s).andThen fun _ s => writeSlots ks s

/-- `push` (44_transceiver.md R212). -/
def push (s : State) : Res Unit := writeSlots (s.cfg.pushOrder (s.mirAt 0)) s

/-- The carrier triplet of a frequency word (44_transceiver.md R210). -/
def setCarrier (fw : BitVec 24) (s : State) : State :=
  ((s.setMir 1 (fw.extractLsb' 16 8)).setMir 2 (fw.extractLsb' 8 8)).setMir 3 (fw.extractLsb' 0 8)

/-- The mirror change of `set_frequency(hz)`: standby, then the carrier (44_transceiver.md R217). -/
def tuneMirror (hz : Word) (s : State) : State :=
  setCarrier (BitVec.ofNat 24 (s.cfg.freqWord hz)) (setMode s.cfg.modeStandby s)

/-- `set_frequency(hz)` (44_transceiver.md R217). -/
def setFrequency (hz : Word) (s : State) : Res Unit := push (tuneMirror hz s)

/-- The payload reads of `receive`, one for each index of the list (44_transceiver.md R220 step 5). -/
def readPayload : List Nat → State → Res Unit
  | [], s => .ok () s
  | i :: is, s => (busRead s.cfg.addrFifo s).andThen fun b s => readPayload is (s.setRaw i b)

/-- `rx_timed_out <- b` (10_state.md R48). -/
def State.setTimedOut (s : State) (b : Bool) : State := { s with drv := { s.drv with rxTimedOut := b } }

/-- Steps 1 and 2 of `receive`: enter RX by a push, then wait (44_transceiver.md R220). -/
def receiveWait (timeout : Nat) (s : State) : Res Bool :=
  (push (setMode s.cfg.modeRx s)).andThen fun _ s => waitIrq timeout s

/-- Step 5 of `receive`: the payload when the interrupt fired (44_transceiver.md R220). -/
def receivePayload (fired : Bool) (s : State) : Res Unit :=
  if fired then
    (readPayload (List.range s.cfg.frameLen) s).andThen fun _ s => .ok () (s.setTimedOut false)
  else .ok () (s.setTimedOut true)

/-- Steps 3 to 5 of `receive` once the RSSI is sampled: store it, leave RX by a push, read the payload
(44_transceiver.md R220). -/
def receiveTail (fired : Bool) (rssi : Byte) (s : State) : Res Unit :=
  (push (setMode s.cfg.modeStandby (s.setRssi rssi))).andThen fun _ s => receivePayload fired s

/-- `receive(timeout)` (44_transceiver.md R220); `k` names the command for the RSSI poll. -/
def receive (timeout : Nat) (k : Bool → Resume) (s : State) : Res Unit :=
  (receiveWait timeout s).andThen fun fired s =>
  (sampleRssi s.cfg.rxRssiTrigger (k fired) s).andThen fun rssi s => receiveTail fired rssi s

/-- The end of `RECEIVE.*` (44_transceiver.md R221). -/
def receiveDone (s : State) : Res Word := .ok (receiveResult s) s

/-- `RECEIVE.*` with its timeout in ticks (44_transceiver.md R221). -/
def receiveCommand (timeout : Nat) (s : State) : Res Word :=
  (receive timeout .receive s).andThen fun _ s => receiveDone s

/-- `SET_FREQ.*` with its frequency in range (44_transceiver.md R215). -/
def setFreqCommand (hz : Word) (s : State) : Res Word :=
  (setFrequency hz s).andThen fun _ s => .ok (BitVec.ofNat 32 (s.cfg.freqWord hz)) s

/-- `device_reset` (44_transceiver.md R228). R228 names no phase for its push: RUN (DESIGN CHOICE, log 20). -/
def deviceReset (s : State) : Res Unit :=
  (driveReset true .rstHigh s).andThen fun _ s =>
  (delay s.cfg.rstHigh.toNat s).andThen fun _ s =>
  (driveReset false .rstSettle s).andThen fun _ s =>
  (delay s.cfg.rstSettle.toNat s).andThen fun _ s => push (s.enter .run)

/-- `SYNC_REGS` (44_transceiver.md R214). -/
def execSyncRegs (s : State) : Host.Outcome State Fault Refusal :=
  .next (judge s true ((push s).andThen fun _ s => .ok 0 s).finish)

/-- `SET_FREQ.I w` (44_transceiver.md R215). -/
def execSetFreqI (w : Word) (s : State) : Host.Outcome State Fault Refusal :=
  .next (judge s (s.cfg.freqInRange w) (setFreqCommand w s).finish)

/-- `SET_FREQ.H` (44_transceiver.md R216). -/
def execSetFreqH (s : State) : Host.Outcome State Fault Refusal :=
  .next (judge s (hopFreqInRange s) (setFreqCommand s.sync.hopFreq s).finish)

/-- `RECEIVE.I w` (44_transceiver.md R221). -/
def execReceiveI (w : Word) (s : State) : Host.Outcome State Fault Refusal :=
  .next (judge s true (receiveCommand w.toNat s).finish)

/-- `RECEIVE.D` (44_transceiver.md R223). -/
def execReceiveD (s : State) : Host.Outcome State Fault Refusal :=
  .next (judge s true (receiveCommand s.cfg.dwell.toNat s).finish)

/-- `DEV_RESET` (44_transceiver.md R228). -/
def execDevReset (s : State) : Host.Outcome State Fault Refusal :=
  .next (judge s true ((deviceReset s).andThen fun _ s => .ok 0 s).finish)

end Sys2Proof.Machine
end

