-- ==== Sys2Proof/Machine/ReceiveLoop.lean ====
section
/-! DEFINITION. The receive loop (46_receive_loop.md): the commands `LOOP.INIT` and `LOOP.STEP`, and how a command
that polls goes on (45_rssi.md R247). -/

namespace Sys2Proof.Machine

/-- Take the next hop and program its carrier (46_receive_loop.md R256, R257). -/
def hopAndTune (s : State) : Res Unit := setFrequency (nextHop s).sync.hopFreq (nextHop s)

/-- `LOOP.STEP` after its receive: decide, hop if told to, answer (46_receive_loop.md R257). -/
def loopDecide (s : State) : Res Word :=
  let h := handle s.drv.rxTimedOut s
  if h.sync.shouldHop then (hopAndTune h).andThen fun _ s => .ok (hpResult s) s else .ok (hpResult h) h

/-- `LOOP.STEP` once its argument test has passed (46_receive_loop.md R257). -/
def loopTurn (s : State) : Res Word :=
  (receive s.cfg.dwell.toNat .loopStep s).andThen fun _ s => loopDecide s

/-- `LOOP.INIT` (46_receive_loop.md R256). -/
def execLoopInit (s : State) : Host.Outcome State Fault Refusal :=
  .next (judge s (nextFreqInRange s) ((hopAndTune s).andThen fun _ s => .ok s.sync.hopFreq s).finish)

/-- `LOOP.STEP` (46_receive_loop.md R257). -/
def execLoopStep (s : State) : Host.Outcome State Fault Refusal :=
  .next (judge s (nextFreqInRange s) (loopTurn s).finish)

/-- What follows the raw RSSI value in the command that polled (45_rssi.md R246, 44_transceiver.md R220,
46_receive_loop.md R257). -/
def afterRssi (k : Resume) (v : Byte) (s : State) : Res Word :=
  match k with
  | .readRssi => storeRssi v s
  | .receive fired => (receiveTail fired v s).andThen fun _ s => receiveDone s
  | .loopStep fired => (receiveTail fired v s).andThen fun _ s => loopDecide s

/-- The next turn of a poll that has not ended (45_rssi.md R247), and the rest of the command when it ends. -/
def resume (k : Resume) (s : State) : State :=
  ((pollOnce k s).andThen fun _ s => (readRssiValue s).andThen fun v s => afterRssi k v s).finish

end Sys2Proof.Machine
end

