-- ==== Sys2Proof/Machine/Port.lean ====
section
/-! DEFINITION. The command port and the reset input (30_encoding.md R90, R91; 70_reset_and_hazards.md R310): what one
step of the machine begins with. -/

namespace Sys2Proof.Machine

/-- A response is presented for one tick (30_encoding.md R90): the next step begins without it. -/
def State.unpresent (s : State) : State := { s with resp := none }

/-- The command at the port is accepted (30_encoding.md R90): it leaves the host's inputs and the sequencer runs, in
phase RUN whatever the command (DESIGN CHOICE for one that can block, log 20). -/
def State.accept (s : State) (rest : List HostInput) : State :=
  { s with phase := .run, resp := none, host := rest }

/-- `cmd_ready` (30_encoding.md R91). -/
def State.cmdReady (s : State) : Bool := s.phase == .idle

/-- The host's next input has been taken and the port stays ready. -/
def State.takeInput (s : State) (rest : List HostInput) : State := { s with resp := none, host := rest }

/-- What a step begins with. -/
inductive Fetched where
  /-- A legal command, and the state that runs it. -/
  | run (i : Instr) (s : State)
  /-- Anything else that gives a next state. -/
  | settled (s : State)
  /-- A place no run reaches (log 12). -/
  | lost

/-- A step that begins with the port ready (30_encoding.md R91): the host's next input. A word that is no command
answers `ERR_ILLEGAL` and changes no state (R96, R97); a host that gives nothing lets a tick pass (log 3). A command
that `rst_n` cuts before its first event and its answer leaves nothing but the low line: core reset overwrites every
register it had written (70_reset_and_hazards.md R310, log 11). -/
def fetchIdle (s : State) : Fetched :=
  match s.host with
  | [] => .settled { s.unpresent with env := s.env.pass 1 }
  | .idle n :: rest => .settled { s.takeInput rest with env := s.env.pass n }
  | .resetAfter n :: rest => .settled { s.takeInput rest with rstIn := some n }
  | .cmdCut _ :: rest => .settled { s.takeInput rest with rstIn := some 0 }
  | .cmd w :: rest =>
    match decode w with
    | .ok i => .run i (s.accept rest)
    | .error _ => .settled (refuse .errIllegal (s.accept rest))

/-- What a step begins with: a low `rst_n` before anything else (70_reset_and_hazards.md R310), a poll that goes on
(45_rssi.md R247), or the command port. -/
def fetch (s : State) : Fetched :=
  if s.rstIn = some 0 then .settled (coreReset s)
  else
    match s.phase with
    | .pollRssi k => .settled (resume k s.unpresent)
    | .idle => fetchIdle s
    | .run => .lost
    | .waitIrq => .lost
    | .rstHigh => .lost
    | .rstSettle => .lost

/-- The machine with a word held on its command port, ready to accept it and out of reset (log 3). -/
def State.present (s : State) (w : Command) : State :=
  { s with phase := .idle, rstIn := none, host := .cmd w :: s.host }

end Sys2Proof.Machine
end

