-- ==== Sys2Proof/Machine/Dispatch.lean ====
section
/-! DEFINITION. The meaning of each command, one arm per constructor of Instr (30_encoding.md R97). -/

namespace Sys2Proof.Machine

def exec (i : Instr) (s : State) : Host.Outcome State Fault Refusal :=
  match i with
  | .nop => Sys2Proof.Machine.execNop s
  | .rd r => Sys2Proof.Machine.execRd r s
  | .crcTbl b => Sys2Proof.Machine.execCrcTbl b s
  | .crcInit h => Sys2Proof.Machine.execCrcInit h s
  | .crcByte b => Sys2Proof.Machine.execCrcByte b s
  | .crcFrame => Sys2Proof.Machine.execCrcFrame s
  | .bitrev b => Sys2Proof.Machine.execBitrev b s
  | .frameLd x b => Sys2Proof.Machine.execFrameLd x b s
  | .frameNorm => Sys2Proof.Machine.execFrameNorm s
  | .decodeFrame => Sys2Proof.Machine.execDecodeFrame s
  | .hpktI f => Sys2Proof.Machine.execHpktI f s
  | .hpktR => Sys2Proof.Machine.execHpktR s
  | .planFreq b => Sys2Proof.Machine.execPlanFreq b s
  | .planHop b => Sys2Proof.Machine.execPlanHop b s
  | .nextHop => Sys2Proof.Machine.execNextHop s
  | .syncRegs => Sys2Proof.Machine.execSyncRegs s
  | .setFreqI w => Sys2Proof.Machine.execSetFreqI w s
  | .setFreqH => Sys2Proof.Machine.execSetFreqH s
  | .receiveI w => Sys2Proof.Machine.execReceiveI w s
  | .receiveD => Sys2Proof.Machine.execReceiveD s
  | .devReset => Sys2Proof.Machine.execDevReset s
  | .readRssi f => Sys2Proof.Machine.execReadRssi f s
  | .loopInit => Sys2Proof.Machine.execLoopInit s
  | .loopStep => Sys2Proof.Machine.execLoopStep s

end Sys2Proof.Machine
end

