-- ==== Sys2Proof/Machine/Step.lean ====
section
/-! DEFINITION. One step of the machine: one command (00_scope.md R15), one turn of a poll, one input of the host, or
a core reset. -/

namespace Sys2Proof.Machine

/-- One step: what `fetch` finds, a command being run by `exec`. -/
def step (s : State) : Host.Outcome State Fault Refusal :=
  match fetch s with
  | .run i s' => exec i s'
  | .settled s' => .next s'
  | .lost => .fault .sequencerLost

/-- `s` with a command word of `nbits` bits held on the command port, so that the next step accepts it (log 3). -/
def State.withFetchWord (s : State) (nbits w : Nat) : State := s.present (BitVec.ofNat 40 (w % 2 ^ nbits))

end Sys2Proof.Machine
end

