-- ==== Sys2Proof/Safety.lean ====
section
/-! DEFINITION. The terms claims use: the invariant of 10_state.md R55, and premises about what the environment
does next (20_memory.md R66). -/

namespace Sys2Proof.Machine

/-- The phases a machine that is not in reset can be in between two steps: no command running, or a poll that has
not ended (10_state.md R24, log 10). -/
def Phase.atRest : Phase → Bool
  | .idle => true
  | .pollRssi _ => true
  | .run => false
  | .waitIrq => false
  | .rstHigh => false
  | .rstSettle => false

/-- The legal denominators (10_state.md R33, R55 (b)). -/
def denominators : List Byte := [1, 10, 16, 100, 160]

/-- The invariants of 10_state.md R55 that are about one state, for a configuration that meets 00_scope.md R6: the
arrays have their lengths, (a) `hop_index < P_N`, (b) the denominator, (c) a LOCKED machine is below the threshold,
(e) `dev_rst` is high only inside the first delay of `DEV_RESET`, (f) mirror slots 4 and up are as after reset.
And where the sequencer stands between two steps: at rest, or cut by a low `rst_n`; in the fault state no command
is running. -/
abbrev State.Inv (s : State) : Prop :=
  s.cfg.wf ∧ Memory.wf s ∧ s.sync.hopIndex.toNat < s.cfg.channels ∧ s.rd.val.den ∈ denominators ∧
    (s.sync.locked = true → s.sync.cb.toNat < s.cfg.badThreshold) ∧
    (s.drv.devRst = true → s.phase = .rstHigh) ∧ s.drv.mir.drop 4 = s.cfg.mirReset.drop 4 ∧
    (s.phase.atRest = true ∨ s.rstIn = some 0) ∧ (s.flt.fault = true → s.phase = .idle)

/-- The conjuncts of `State.Inv` about registers and configuration alone: they hold inside a command too, so also in the
state in which `step` hands a command to `exec`. -/
abbrev State.RegInv (s : State) : Prop :=
  s.cfg.wf ∧ Memory.wf s ∧ s.sync.hopIndex.toNat < s.cfg.channels ∧ s.rd.val.den ∈ denominators ∧
    (s.sync.locked = true → s.sync.cb.toNat < s.cfg.badThreshold) ∧ s.drv.mir.drop 4 = s.cfg.mirReset.drop 4

/-- The device's next `n` answers. -/
def Env.answers : Nat → Env → List BusAnswer
  | 0, _ => []
  | n + 1, e => e.nextAnswer :: Env.answers n e.afterAnswer

/-- The inputs after the device's next `n` answers. -/
def Env.afterAnswers : Nat → Env → Env
  | 0, e => e
  | n + 1, e => Env.afterAnswers n e.afterAnswer

/-- The device answers its next `n` transactions with success. -/
abbrev Env.succeeds (e : Env) (n : Nat) : Prop := ∀ a ∈ e.answers n, a.ok = true

/-- Nothing cuts a command that runs now: the CORE is not in fault and `rst_n` stays high. -/
abbrev State.clear (s : State) : Prop := s.flt.fault = false ∧ s.rstIn = none

/-- The events of successful writes of the slots `ks`, with the bytes the mirror `mir` holds (20_memory.md R67). -/
def slotWrites (c : Config) (mir : List Byte) (ks : List Nat) : List Event :=
  ks.map fun k => .write (c.addrAt k) (mir.getD k 0) true

/-- How many transactions `sample_rssi` makes when its first poll already shows a ready bit (45_rssi.md R249): the
trigger, one poll and the value, or the value alone. -/
def sampleSteps (trigger : Bool) : Nat := if trigger then 3 else 1

/-- The events of a successful `sample_rssi` whose first poll read `ready`, a ready bit set, and whose value is `v`
(45_rssi.md R249). -/
def sampleEvents (c : Config) (trigger : Bool) (ready v : Byte) : List Event :=
  (if trigger then [.write c.addrRssiCfg c.rssiStart true, .read c.addrRssiCfg (some ready)] else []) ++
    [.read c.addrRssiVal (some v)]

/-- The device's data byte in its next answer but `n`. -/
def Env.answerAt (e : Env) (n : Nat) : Byte := (e.afterAnswers n).nextAnswer.data

/-- The data bytes of the device's answers from the next but `n` on, `k` of them. -/
def Env.answersFrom (e : Env) (n k : Nat) : List Byte := ((e.afterAnswers n).answers k).map BusAnswer.data

end Sys2Proof.Machine
end

