-- ==== Sys2Proof/WellFormed.lean ====
section
/-! DEFINITION. Which commands are well formed under a configuration: their immediate argument is in the range of
30_encoding.md R98. A command that is not well formed still decodes and still runs: it answers `ERR_ARG`
(or `ERR_FAULT` before it, 30_encoding.md R96). -/

namespace Sys2Proof

/-- The immediate argument of the command is in its range under `c` (30_encoding.md R98). The ranges of
`SET_FREQ.H`, `LOOP.INIT` and `LOOP.STEP` depend on registers and are tested when they run. -/
def Instr.wf (c : Config) : Instr → Bool
  | .rd r => c.rdInRange r
  | .frameLd i _ => c.frameIndexInRange i
  | .planFreq b => c.planInRange b
  | .planHop b => c.planInRange b
  | .setFreqI w => c.freqInRange w
  | .nop => true
  | .crcTbl _ => true
  | .crcInit _ => true
  | .crcByte _ => true
  | .crcFrame => true
  | .bitrev _ => true
  | .frameNorm => true
  | .decodeFrame => true
  | .hpktI _ => true
  | .hpktR => true
  | .nextHop => true
  | .syncRegs => true
  | .setFreqH => true
  | .receiveI _ => true
  | .receiveD => true
  | .devReset => true
  | .readRssi _ => true
  | .loopInit => true
  | .loopStep => true

end Sys2Proof
end

