-- ==== Sys2Proof/Certificates/Slice0/Obligations.lean ====
section
/-! DEFINITION. The statements for the provers, and the terms they are written in: what the rules of spec/ say a
command leaves, written from the rules and not from the meanings. -/

namespace Sys2Proof.Spec

open Sys2Proof.Machine

/-! ### The terms of the statements -/

/-- `s` after a command that ended with a status and a result (30_encoding.md R95). -/
def ended (st : Status) (result : Nat) (s : State) : State :=
  { s with phase := .idle, resp := some { status := st, result := BitVec.ofNat 32 result } }

/-- Several commands one after the other, each to its end (20_memory.md R70). -/
def runAll : List Instr → State → Host.Outcome State Fault Refusal
  | [], s => .next s
  | i :: is, s =>
    match exec i s with
    | .next t => runAll is t
    | .fault r => .fault r
    | .refused r => .refused r

/-- The number a flag stands for. -/
def bit (b : Bool) : Nat := if b then 1 else 0

/-- `hp_outcome` as a number (10_state.md R44). -/
def outcomeNat : HpOutcome → Nat
  | .timeout => 0
  | .corrupt => 1
  | .wrongStation => 2
  | .good => 3

/-- `hp_result` as a number: fields at bits 12:5, 4, 3:2, 1, 0 (42_hop_sync.md R171). -/
def hpResultNat (s : State) : Nat :=
  s.sync.cb.toNat * 32 + bit s.sync.locked * 16 + outcomeNat s.sync.hpOutcome * 4 + bit s.rd.valid * 2 +
    bit s.sync.shouldHop

/-- The value of register number `n` as a number, for every number of the map but 0x10 (10_state.md R53). -/
def registerNat (s : State) (n : Nat) : Nat :=
  match n with
  | 0x00 =>
    bit s.flt.fault + 2 * bit s.sync.locked + 4 * bit s.sync.shouldHop + 8 * bit s.rd.valid +
      16 * bit s.rd.val.batt + 32 * bit s.chk.crcOk + 64 * bit s.rd.nfts + 128 * bit s.drv.rxTimedOut +
      256 * bit s.drv.devRst + 512 * outcomeNat s.sync.hpOutcome
  | 0x01 => s.chk.crc.toNat
  | 0x02 => s.sync.hopIndex.toNat
  | 0x03 => s.sync.hopChan.toNat
  | 0x04 => s.sync.hopFreq.toNat
  | 0x05 => s.cfg.dwellBase.toNat + s.cfg.stationNumber * s.cfg.dwellStep.toNat
  | 0x06 => s.sync.cb.toNat
  | 0x07 => s.sync.lastGood.toNat
  | 0x08 => s.sync.lastHop.toNat
  | 0x09 => s.cfg.stationNumber % 16 + 256 * s.cfg.stationNumber
  | 0x0A => s.rd.val.station.toNat + 16 * s.rd.val.kind.toNat
  | 0x0B => s.rd.val.raw.toNat
  | 0x0C => s.rd.val.num.toNat + 65536 * s.rd.val.den.toNat
  | 0x0D => s.rd.val.wspd.toNat + 256 * s.rd.val.wdir.toNat
  | 0x0E => s.drv.rssiRaw.toNat
  | 0x0F => s.flt.errAddr.toNat + 256 * bit s.flt.errRw
  | n =>
    if n < 0x30 then (s.rawAt (n - 0x20)).toNat
    else if n < 0x40 then (s.decAt (n - 0x30)).toNat
    else (s.mirAt (n - 0x40)).toNat

/-- The register numbers of 10_state.md R53. -/
abbrev registerNumber (c : Config) (n : Nat) : Prop :=
  n ≤ 0x10 ∨ (0x20 ≤ n ∧ n < 0x20 + c.frameLen) ∨ (0x30 ≤ n ∧ n < 0x30 + c.frameLen) ∨
    (0x40 ≤ n ∧ n < 0x40 + c.slots)

/-- Eight rounds of the bitwise division a table-driven CRC stands for (40_checksum.md R121): the top bit is shifted
out and, when it was one, the polynomial is exclusive-ored in. -/
def eightRounds (p c : Half) : Half :=
  (List.range 8).foldl (fun c _ => if c.getLsbD 15 then (c <<< 1) ^^^ p else c <<< 1) c

/-- The decoded value as the document's table gives it, a rational of the frame's bytes (41_bitrev_codec.md R151 to
R160). -/
def documentValue (k : SensorKinds) (kind : BitVec 4) (d0 d1 : Nat) : ℚ :=
  if kind = k.supercap then ((d0 * 4 + (d1 &&& 0xC0) / 64 : ℕ) : ℚ) / 100
  else if kind = k.rainRate then
    if d0 = 0xFF then 0
    else if (d1 / 64) % 2 = 0 then (((d1 &&& 0x30) / 16 * 250 + d0 : ℕ) : ℚ)
    else (((d1 &&& 0x30) / 16 * 250 + d0 : ℕ) : ℚ) / 16
  else if kind = k.light then ((d0 * 4 + (d1 &&& 0xC0) / 64 : ℕ) : ℚ)
  else if kind = k.temp then ((d0 * 256 + d1 : ℕ) : ℚ) / 160
  else if kind = k.gust then (d0 : ℚ)
  else if kind = k.humidity then (((d1 &&& 0xF0) * 16 + d0 : ℕ) : ℚ) / 10
  else if kind = k.rainClick then ((d0 &&& 0x7F : ℕ) : ℚ)
  else 0

/-- `rd_num` and `rd_den` as the rules of the kinds give them, unreduced (41_bitrev_codec.md R150 to R160). -/
def documentFraction (k : SensorKinds) (kind : BitVec 4) (d0 d1 : Nat) : Nat × Nat :=
  if kind = k.supercap then (d0 * 4 + d1 / 64, 100)
  else if kind = k.uv then (0, 1)
  else if kind = k.rainRate then
    if d0 = 0xFF then (0, 1) else (d1 / 16 % 4 * 250 + d0, if (d1 / 64) % 2 = 0 then 1 else 16)
  else if kind = k.solar then (0, 1)
  else if kind = k.light then (d0 * 4 + d1 / 64, 1)
  else if kind = k.temp then (d0 * 256 + d1, 160)
  else if kind = k.gust then (d0, 1)
  else if kind = k.humidity then (d1 / 16 * 256 + d0, 10)
  else if kind = k.rainClick then (d0 % 128, 1)
  else (0, 1)

/-- Which path the decision algorithm takes (42_hop_sync.md R179). -/
def handlerPath (s : State) (timedOut : Bool) : HpOutcome :=
  if timedOut then .timeout
  else if checksum s.cfg s.cfg.crcInit (s.buf.raw.map bitrev8) ≠ s.cfg.residue then .corrupt
  else if (bitrev8 (s.rawAt 0)).toNat % 16 ≠ s.cfg.stationNumber % 16 then .wrongStation
  else .good

/-- `((t - last_hop) mod 2^32) >= dwell` (42_hop_sync.md R178), in numbers. -/
def dwellElapsed (s : State) (t : Word) : Bool :=
  decide (s.cfg.dwell.toNat ≤ (t.toNat + 2 ^ 32 - s.sync.lastHop.toNat) % 2 ^ 32)

/-- The sync group after a handler command on path `o` at the sample `t` of `now`: the transition table of
42_hop_sync.md R181, row by row. -/
def syncAfter (s : State) (o : HpOutcome) (t : Word) : Sync :=
  let bad : Sync :=
    if s.sync.locked then
      if s.sync.cb.toNat + 1 < s.cfg.badThreshold then
        { s.sync with cb := BitVec.ofNat 8 (s.sync.cb.toNat + 1), shouldHop := true, hpOutcome := o }
      else { s.sync with locked := false, cb := 0, shouldHop := dwellElapsed s t, hpOutcome := o }
    else
      { s.sync with
        cb := BitVec.ofNat 8 (min (s.sync.cb.toNat + 1) 255), shouldHop := dwellElapsed s t, hpOutcome := o }
  match o with
  | .timeout => bad
  | .corrupt => bad
  | .wrongStation => { s.sync with shouldHop := false, hpOutcome := .wrongStation }
  | .good => { s.sync with locked := true, cb := 0, shouldHop := true, lastGood := t, hpOutcome := .good }

/-- `s` after `handle(timed_out)` (42_hop_sync.md R173 to R179). -/
def afterHandle (timedOut : Bool) (s : State) : State :=
  let t := s.env.afterLag.now
  let o := handlerPath s timedOut
  let crc := checksum s.cfg s.cfg.crcInit (s.buf.raw.map bitrev8)
  { s with
    env := s.env.afterLag
    chk := if timedOut then s.chk else { crc := crc, crcOk := decide (crc = s.cfg.residue) }
    buf := if timedOut then s.buf else { s.buf with dec := s.buf.raw.map bitrev8 }
    rd :=
      { val := if o = .good then decodeFields s.cfg.kinds (s.buf.raw.map bitrev8) else s.rd.val
        valid := decide (o = .good)
        nfts := decide (o = .wrongStation) }
    sync := syncAfter s o t }

/-- `s` after `next_hop` (43_channel_plan.md R193). -/
def afterHop (s : State) : State :=
  { s with
    env := s.env.afterLag
    sync := { s.sync with
      hopChan := BitVec.ofNat 8 (s.cfg.hop.getD s.sync.hopIndex.toNat 0)
      hopFreq := s.cfg.freq.getD (s.cfg.hop.getD s.sync.hopIndex.toNat 0) 0
      hopIndex := BitVec.ofNat 8 ((s.sync.hopIndex.toNat + 1) % s.cfg.channels)
      lastHop := s.env.afterLag.now } }

/-- `FreqWord(hz) = floor(hz * P_STEP_DEN / P_STEP_NUM)` (44_transceiver.md R209). -/
def frequencyWord (c : Config) (hz : Word) : Nat := hz.toNat * c.stepDen / c.stepNum

/-- The mode byte with its field set to `m` and its other bits kept (44_transceiver.md R207). -/
def modeByte (c : Config) (b m : Byte) : Byte := (b &&& ~~~c.modeMask) ||| m

/-- The mirror with the mode field of slot 0 set to `m` (44_transceiver.md R211). -/
def mirrorInMode (s : State) (m : Byte) : List Byte := s.drv.mir.set 0 (modeByte s.cfg (s.mirAt 0) m)

/-- The mirror after `set_frequency(hz)`: standby in slot 0, the word in slots 1 to 3, most significant byte first
(44_transceiver.md R210, R217). -/
def tunedMirror (s : State) (hz : Word) : List Byte :=
  let fw := frequencyWord s.cfg hz
  (((mirrorInMode s s.cfg.modeStandby).set 1 (BitVec.ofNat 8 (fw / 65536))).set 2
    (BitVec.ofNat 8 (fw / 256))).set 3 (BitVec.ofNat 8 fw)

/-- The slots with the mode first, the order of a push out of RX (44_transceiver.md R212). -/
def modeFirst (c : Config) : List Nat := List.range c.slots

/-- The slots with the mode last, the order of a push into RX (44_transceiver.md R212). -/
def modeLast (c : Config) : List Nat := List.range' 1 (c.slots - 1) ++ [0]

/-- `s` after a `set_frequency(hz)` whose push succeeded (44_transceiver.md R217). -/
def afterTune (hz : Word) (s : State) : State :=
  { s with
    drv := { s.drv with mir := tunedMirror s hz }
    env := s.env.afterAnswers s.cfg.slots
    trace := s.trace ++ slotWrites s.cfg (tunedMirror s hz) (modeFirst s.cfg) }

/-- The line rises at tick `t`: it was low at the tick before and is high now. -/
abbrev risesAt (e : Env) (t : Nat) : Prop := e.irqLevel t = true ∧ e.irqLevel (t - 1) = false

/-- How a wait of at most `timeout` ticks begun at true time `t0` ends (44_transceiver.md R222): at the first rise
after `t0`, when there is one within the timeout; at the timeout when there is none. -/
abbrev waitEnds (e : Env) (t0 timeout ticks : Nat) (fired : Bool) : Prop :=
  (fired = true ∧ 1 ≤ ticks ∧ ticks ≤ timeout ∧ risesAt e (t0 + ticks) ∧
      ∀ j, 1 ≤ j → j < ticks → ¬ risesAt e (t0 + j)) ∨
    (fired = false ∧ ticks = timeout ∧ ∀ j, 1 ≤ j → j ≤ timeout → ¬ risesAt e (t0 + j))

/-- `s` after a `receive` in which every transaction succeeded and the sampler, if it polls, saw a ready bit at its
first poll, whose wait lasted `ticks` and ended with `fired`, and which left `irq_prev` at `prev`
(44_transceiver.md R220). -/
def afterReceive (s : State) (ticks : Nat) (fired prev : Bool) : State :=
  let n := s.cfg.slots
  let m := sampleSteps s.cfg.rxRssiTrigger
  let rssi := s.env.answerAt (n + m - 1)
  let payload := s.env.answersFrom (n + m + n) s.cfg.frameLen
  { s with
    phase := .run
    env := (s.env.afterAnswers (n + m + n + (if fired then s.cfg.frameLen else 0))).pass ticks
    trace :=
      s.trace ++ slotWrites s.cfg (mirrorInMode s s.cfg.modeRx) (modeLast s.cfg) ++ [.wait ticks fired] ++
        sampleEvents s.cfg s.cfg.rxRssiTrigger (s.env.answerAt (n + 1)) rssi ++
        slotWrites s.cfg (mirrorInMode s s.cfg.modeStandby) (modeFirst s.cfg) ++
        (if fired then payload.map (fun b => .read s.cfg.addrFifo (some b)) else [])
    buf := { s.buf with raw := if fired then payload else s.buf.raw }
    drv := { s.drv with
      mir := mirrorInMode s s.cfg.modeStandby, rssiRaw := rssi, rxTimedOut := !fired, irqPrev := prev } }

/-- The premises of a receive that goes through: nothing cuts it, the device answers every transaction it can make
with success, and the sampler, if it polls, sees a ready bit at its first poll. -/
abbrev receiveGoesThrough (s : State) (more : Nat) : Prop :=
  s.RegInv ∧ s.clear ∧
    s.env.succeeds (s.cfg.slots + sampleSteps s.cfg.rxRssiTrigger + s.cfg.slots + s.cfg.frameLen + more) ∧
    (s.cfg.rxRssiTrigger = true → s.env.answerAt (s.cfg.slots + 1) &&& s.cfg.rssiDone ≠ 0)

/-- `s`, suspended in the poll of a `receive` whose wait ended with `fired`, after the rest of that `receive`, when the
next answer shows a ready bit and every transaction succeeds (45_rssi.md R247, R249, 44_transceiver.md R220). -/
def afterPolledReceive (s : State) (fired : Bool) : State :=
  let n := s.cfg.slots
  let payload := s.env.answersFrom (2 + n) s.cfg.frameLen
  { s with
    phase := .run
    resp := none
    env := s.env.afterAnswers (2 + n + (if fired then s.cfg.frameLen else 0))
    trace :=
      s.trace ++ [.read s.cfg.addrRssiCfg (some (s.env.answerAt 0)),
        .read s.cfg.addrRssiVal (some (s.env.answerAt 1))] ++
        slotWrites s.cfg (mirrorInMode s s.cfg.modeStandby) (modeFirst s.cfg) ++
        (if fired then payload.map (fun b => .read s.cfg.addrFifo (some b)) else [])
    buf := { s.buf with raw := if fired then payload else s.buf.raw }
    drv := { s.drv with
      mir := mirrorInMode s s.cfg.modeStandby, rssiRaw := s.env.answerAt 1, rxTimedOut := !fired } }

/-! The terms of the statements about failed transactions (60_exceptions.md R278). -/

/-- The transaction `k` places on is the device's first failure. -/
abbrev failsAt (e : Env) (k : Nat) : Prop := e.succeeds k ∧ (e.afterAnswers k).nextAnswer.ok = false

/-- `s` after a read of `a` that failed: the event, the fault registers and the answer name it, nothing else changes. -/
def failedRead (a : Byte) (s : State) : State :=
  ended .errBus (256 + a.toNat)
    { s with
      flt := { fault := true, errAddr := a, errRw := true }
      env := s.env.afterAnswer
      trace := s.trace ++ [.read a none] }

/-- `s` after a write of `v` to `a` that failed: the event, the fault registers and the answer name it, nothing else
changes. -/
def failedWrite (a v : Byte) (s : State) : State :=
  ended .errBus a.toNat
    { s with
      flt := { fault := true, errAddr := a, errRw := false }
      env := s.env.afterAnswer
      trace := s.trace ++ [.write a v false] }

/-- `s` with another mirror. -/
def withMirror (mir : List Byte) (s : State) : State := { s with drv := { s.drv with mir := mir } }

/-- `s` after the first `k` writes of a push in the given order have succeeded (44_transceiver.md R212). -/
def pushed (order : List Nat) (k : Nat) (s : State) : State :=
  { s with
    env := s.env.afterAnswers k
    trace := s.trace ++ slotWrites s.cfg s.drv.mir (order.take k) }

/-- `s` after a push in the given order whose write number `k` failed (44_transceiver.md R212). -/
def failedPush (order : List Nat) (k : Nat) (s : State) : State :=
  failedWrite (s.cfg.addrAt (order.getD k 0)) (s.mirAt (order.getD k 0)) (pushed order k s)

/-- The order of a push of the mirror as it stands (44_transceiver.md R212). -/
def presentOrder (s : State) : List Nat :=
  if s.mirAt 0 &&& s.cfg.modeMask = s.cfg.modeRx then modeLast s.cfg else modeFirst s.cfg

/-- `s` after the pulse of `DEV_RESET`, before its push (44_transceiver.md R228). -/
def afterPulse (s : State) : State :=
  { s with
    env := s.env.pass (s.cfg.rstHigh.toNat + s.cfg.rstSettle.toNat)
    trace := s.trace ++ [.rst true, .delay s.cfg.rstHigh.toNat, .rst false, .delay s.cfg.rstSettle.toNat] }

/-- `s` after the trigger write of a `sample_rssi` has succeeded (45_rssi.md R249). -/
def afterTrigger (s : State) : State :=
  { s with
    env := s.env.afterAnswers 1
    trace := s.trace ++ [.write s.cfg.addrRssiCfg s.cfg.rssiStart true] }

/-- `s` after one read of the RSSI ready register has succeeded (45_rssi.md R247). -/
def afterPoll (s : State) : State :=
  { s with
    env := s.env.afterAnswers 1
    trace := s.trace ++ [.read s.cfg.addrRssiCfg (some (s.env.answerAt 0))] }

/-- `s` after the poll read with the ready bit and the value read of a command suspended in the poll of a `receive`, the
value being stored (45_rssi.md R249, 44_transceiver.md R220 step 3). -/
def afterReady (s : State) : State :=
  { s with
    drv := { s.drv with rssiRaw := s.env.answerAt 1 }
    env := s.env.afterAnswers 2
    trace := s.trace ++ [.read s.cfg.addrRssiCfg (some (s.env.answerAt 0)),
      .read s.cfg.addrRssiVal (some (s.env.answerAt 1))] }

/-- `s` after a `sample_rssi` whose transaction number `j` failed (45_rssi.md R249). -/
def failedSample (trigger : Bool) (j : Nat) (s : State) : State :=
  if trigger then
    match j with
    | 0 => failedWrite s.cfg.addrRssiCfg s.cfg.rssiStart s
    | 1 => failedRead s.cfg.addrRssiCfg (afterTrigger s)
    | _ => failedRead s.cfg.addrRssiVal (afterPoll (afterTrigger s))
  else failedRead s.cfg.addrRssiVal s

/-- The bound of the wait of a command that receives (44_transceiver.md R221, R223, 46_receive_loop.md R257). -/
def receiveTimeout (s : State) : Instr → Option Nat
  | .receiveI w => some w.toNat
  | .receiveD => some s.cfg.dwell.toNat
  | .loopStep => some s.cfg.dwell.toNat
  | _ => none

/-- `s` after the first push and the wait of a `receive` (44_transceiver.md R220 steps 1 and 2). -/
def afterWait (s : State) (ticks : Nat) (fired prev : Bool) : State :=
  { s with
    drv := { s.drv with mir := mirrorInMode s s.cfg.modeRx, irqPrev := prev }
    env := (s.env.afterAnswers s.cfg.slots).pass ticks
    trace := s.trace ++ slotWrites s.cfg (mirrorInMode s s.cfg.modeRx) (modeLast s.cfg) ++ [.wait ticks fired] }

/-- `s` after the sample of a `receive`, its first poll, if it polls, showing a ready bit (44_transceiver.md R220
step 3, 45_rssi.md R249). -/
def afterSample (s : State) : State :=
  let m := sampleSteps s.cfg.rxRssiTrigger
  { s with
    drv := { s.drv with rssiRaw := s.env.answerAt (m - 1) }
    env := s.env.afterAnswers m
    trace := s.trace ++ sampleEvents s.cfg s.cfg.rxRssiTrigger (s.env.answerAt 1) (s.env.answerAt (m - 1)) }

/-- `s` after the first `k` payload reads of a `receive` have succeeded (44_transceiver.md R220 step 5). -/
def afterPayload (k : Nat) (s : State) : State :=
  { s with
    buf := { s.buf with raw := s.env.answersFrom 0 k ++ s.buf.raw.drop k }
    env := s.env.afterAnswers k
    trace := s.trace ++ (s.env.answersFrom 0 k).map fun b => .read s.cfg.addrFifo (some b) }

/-- The event is a write of `b` to `a` that the device may have seen, answered or cut in flight. -/
abbrev writesByte (e : Event) (a b : Byte) : Prop := (∃ ok, e = .write a b ok) ∨ e = .writeCut a b

/-- The commands that can touch the bus (60_exceptions.md R276). -/
def busCommand : Instr → Bool
  | .syncRegs => true
  | .setFreqI _ => true
  | .setFreqH => true
  | .receiveI _ => true
  | .receiveD => true
  | .devReset => true
  | .readRssi _ => true
  | .loopInit => true
  | .loopStep => true
  | _ => false

/-- The handler commands (10_state.md R41). -/
def handlerCommand : Instr → Bool
  | .hpktI _ => true
  | .hpktR => true
  | .loopStep => true
  | _ => false

/-- The commands that receive (10_state.md R27). -/
def receiveCommandOf : Instr → Bool
  | .receiveI _ => true
  | .receiveD => true
  | .loopStep => true
  | _ => false

/-- How a command goes on from its ready-bit poll, when it has one; `fired` is how its wait ended (45_rssi.md R246, R250,
46_receive_loop.md R257). -/
def pollOf (fired : Bool) : Instr → Option Resume
  | .readRssi true => some .readRssi
  | .receiveI _ => some (.receive fired)
  | .receiveD => some (.receive fired)
  | .loopStep => some (.loopStep fired)
  | _ => none

/-- The phase is the poll of the command (45_rssi.md R247). -/
abbrev pollsFor (i : Instr) (p : Phase) : Prop := ∃ fired k, pollOf fired i = some k ∧ p = .pollRssi k

/-- A step's part of a command leads from `s` to `t`: the part that begins it, or a later turn of its poll, which goes on
to its end when a ready bit is seen (45_rssi.md R247, log 10). -/
abbrev turnOf (i : Instr) (s t : State) : Prop :=
  exec i s = .next t ∨ (pollsFor i s.phase ∧ s.rstIn ≠ some 0 ∧ step s = .next t)

/-- The commands that hop (10_state.md R39). -/
def hopCommand : Instr → Bool
  | .nextHop => true
  | .loopInit => true
  | .loopStep => true
  | _ => false

/-- The commands that tune (44_transceiver.md R215, R216, 46_receive_loop.md R256, R257). -/
def tuneCommand : Instr → Bool
  | .setFreqI _ => true
  | .setFreqH => true
  | .loopInit => true
  | .loopStep => true
  | _ => false

/-- The argument ranges of 30_encoding.md R98. -/
def argumentInRange (s : State) : Instr → Prop
  | .rd r => registerNumber s.cfg r.toNat
  | .frameLd i _ => i.toNat < s.cfg.frameLen
  | .planFreq b => b.toNat < s.cfg.channels
  | .planHop b => b.toNat < s.cfg.channels
  | .setFreqI w => frequencyWord s.cfg w < 2 ^ 24
  | .setFreqH => frequencyWord s.cfg s.sync.hopFreq < 2 ^ 24
  | .loopInit => frequencyWord s.cfg (s.cfg.freq.getD (s.cfg.hop.getD s.sync.hopIndex.toNat 0) 0) < 2 ^ 24
  | .loopStep => frequencyWord s.cfg (s.cfg.freq.getD (s.cfg.hop.getD s.sync.hopIndex.toNat 0) 0) < 2 ^ 24
  | _ => True

end Sys2Proof.Spec

open Sys2Proof Sys2Proof.Machine Sys2Proof.Spec

/-! ### Encoding -/

/-- 30_encoding.md R92 to R97: decoding the word of a command gives the command, whatever its operands. -/
def Obligations.DecodeOfEncodeIsTheCommand : Prop := ∀ i : Instr, decode (encode i) = .ok i

/-- 30_encoding.md R92 to R97: a word that decodes is the word of the command it decodes to: no bit is dropped. -/
def Obligations.DecodedWordIsItsEncoding : Prop := ∀ (w : Command) (i : Instr), decode w = .ok i → encode i = w

/-- 30_encoding.md R97: a word is the command of a row exactly when it holds the row under its mask, and the rows'
match sets are pairwise disjoint. -/
def Obligations.WordIsTheCommandOfARowExactlyWhenItMatches : Prop :=
  (∀ (w : Command), ∀ r ∈ opcodeTable, w &&& r.mask = r.fixed ↔ ∃ i, decode w = .ok i ∧ i.row = r) ∧
    (∀ i : Instr, i.row ∈ opcodeTable) ∧
    opcodeTable.Pairwise fun r q => ∀ w : Command, ¬ (w &&& r.mask = r.fixed ∧ w &&& q.mask = q.fixed)

/-- Words written out from the tables of 30_encoding.md R93 and R97, one of each family and format, decode to the
commands they stand for. -/
def Obligations.WrittenWordsDecode : Prop :=
  decode 0x0000000000 = .ok .nop ∧ decode 0x010000000C = .ok (.rd 0x0C) ∧
    decode 0x1100000000 = .ok (.crcInit 0) ∧ decode 0x1200000081 = .ok (.crcByte 0x81) ∧
    decode 0x210000034C = .ok (.frameLd 3 0x4C) ∧ decode 0x3000000001 = .ok (.hpktI true) ∧
    decode 0x4100000003 = .ok (.planHop 3) ∧ decode 0x5135C8DB7B = .ok (.setFreqI 902355835) ∧
    decode 0x6000000001 = .ok (.readRssi true) ∧ decode 0x7100000000 = .ok .loopStep

/-! ### The step -/

/-- 30_encoding.md R90, R91, R96: with the port ready and a command word on it, a step is the command it decodes to,
run from the state in which the word is accepted. That the accepting state is in phase RUN for every command, also
one that can block, is the model's choice (log 20). -/
def Obligations.StepRunsTheDecodedCommand : Prop :=
  ∀ (s : State) (w : Command) (rest : List HostInput) (i : Instr),
    s.phase = .idle → s.rstIn ≠ some 0 → s.host = .cmd w :: rest → decode w = .ok i →
      step s = exec i { s with phase := .run, resp := none, host := rest }

/-- 30_encoding.md R92 to R97: the word of a command, put on the port, runs that command, whatever its operands.
That the accepting state is in phase RUN for every command is the model's choice (log 20), and so is the way a word
is put on the port (log 3). -/
def Obligations.PresentedCommandRuns : Prop :=
  ∀ (s : State) (i : Instr),
    step (s.withFetchWord 40 (encode i).toNat) = exec i { s with phase := .run, resp := none, rstIn := none }

/-- 30_encoding.md R96, R97, 60_exceptions.md R280: a word that matches no row answers `ERR_ILLEGAL` and changes no
state, in the fault state too. -/
def Obligations.IllegalWordAnswersErrIllegal : Prop :=
  ∀ (s : State) (w : Command) (rest : List HostInput),
    s.phase = .idle → s.rstIn ≠ some 0 → s.host = .cmd w :: rest →
      (∀ r ∈ opcodeTable, w &&& r.mask ≠ r.fixed) →
        step s = .next (ended .errIllegal 0 { s with host := rest })

/-- 30_encoding.md R98: with the word legal and the CORE not in fault (`RD`: in any case), an argument out of its range
answers `ERR_ARG`, changes no state, touches no bus and emits no event; and only such an argument does. -/
def Obligations.OnlyAnArgumentOutOfRangeAnswersErrArg : Prop :=
  ∀ (i : Instr) (s : State), (s.flt.fault = false ∨ ∃ r, i = .rd r) →
    (¬ argumentInRange s i → exec i s = .next (ended .errArg 0 s)) ∧
    (argumentInRange s i → s.resp = none → ∀ t, exec i s = .next t →
      ∀ v, t.resp ≠ some { status := .errArg, result := v })

/-! ### Invariants of the whole machine -/

/-- 10_state.md R54, R55, 00_scope.md R6: the invariant holds right after core reset, for every configuration that
meets its constraints, State.reset's among them. -/
def Obligations.InvariantHoldsAtReset : Prop :=
  State.reset.Inv ∧
    ∀ (c : Config) (h : List HostInput) (e : Env) (tr : List Event), c.wf → (State.atReset c h e tr).Inv

/-- 10_state.md R55: from every state with the invariant a step gives a next state (no fault, no refusal), and that
state has the invariant. Where the sequencer stands between steps is the model's choice (logs 10 to 12). -/
def Obligations.EveryStepGoesOnAndKeepsTheInvariant : Prop :=
  ∀ s : State, s.Inv → ∃ t, step s = .next t ∧ t.Inv

/-- 00_scope.md R14, R67 of 20_memory.md, 10_state.md R47: no step changes the configuration, the trace only grows,
and true time never goes back. -/
def Obligations.ConfigurationStaysTraceGrowsTimeAdvances : Prop :=
  ∀ s t : State, step s = .next t → t.cfg = s.cfg ∧ s.trace <+: t.trace ∧ s.env.time ≤ t.env.time

/-- 60_exceptions.md R279: in the fault state every command but `NOP` and `RD` answers `ERR_FAULT` and changes
nothing; `NOP` and `RD` run as usual; and as long as the CORE is not reset no step clears the fault registers or
touches the bus. -/
def Obligations.FaultStateRefusesAndStays : Prop :=
  ∀ s : State, s.flt.fault = true →
    (∀ i : Instr, i ≠ .nop → (∀ r, i ≠ .rd r) → exec i s = .next (ended .errFault 0 s)) ∧
    exec .nop s = .next (ended .ok 0 s) ∧
    (∀ r : Byte,
      (registerNumber s.cfg r.toNat → r ≠ 0x10 → exec (.rd r) s = .next (respond .ok (readReg s r) s)) ∧
      (r = 0x10 → exec (.rd r) s = .next (respond .ok s.env.afterLag.now { s with env := s.env.afterLag })) ∧
      (¬ registerNumber s.cfg r.toNat → exec (.rd r) s = .next (ended .errArg 0 s))) ∧
    (∀ t, s.phase = .idle → s.rstIn ≠ some 0 → step s = .next t → t.flt = s.flt ∧ t.trace = s.trace)

/-- 60_exceptions.md R276: only the nine bus commands answer `ERR_BUS`, enter the fault state or emit an event. -/
def Obligations.BusErrorsComeOnlyFromBusCommands : Prop :=
  ∀ (i : Instr) (s t : State), exec i s = .next t → busCommand i = false →
    t.flt = s.flt ∧ t.trace = s.trace ∧ ∃ r, t.resp = some r ∧ r.status ≠ .errBus

/-- 10_state.md R25 to R50: each register is written only by the commands its rule names, in the step that begins a
command and in every later turn of its poll. That a later turn of the poll is a step is the model's choice (log 10). -/
def Obligations.RegistersAreWrittenOnlyByTheirWriters : Prop :=
  ∀ (i : Instr) (s t : State), turnOf i s t →
    (t.sync.hopIndex ≠ s.sync.hopIndex ∨ t.sync.hopChan ≠ s.sync.hopChan ∨ t.sync.hopFreq ≠ s.sync.hopFreq ∨
      t.sync.lastHop ≠ s.sync.lastHop → hopCommand i = true) ∧
    (t.sync.locked ≠ s.sync.locked ∨ t.sync.cb ≠ s.sync.cb ∨ t.sync.lastGood ≠ s.sync.lastGood ∨
      t.sync.shouldHop ≠ s.sync.shouldHop ∨ t.sync.hpOutcome ≠ s.sync.hpOutcome → handlerCommand i = true) ∧
    (t.rd ≠ s.rd → handlerCommand i = true ∨ i = .decodeFrame) ∧
    (t.rd.valid = true → s.rd.valid = true ∨ handlerCommand i = true) ∧
    (t.chk.crcOk ≠ s.chk.crcOk → handlerCommand i = true ∨ i = .crcFrame) ∧
    (t.chk.crc ≠ s.chk.crc →
      handlerCommand i = true ∨ i = .crcFrame ∨ (∃ h, i = .crcInit h) ∨ ∃ b, i = .crcByte b) ∧
    (t.buf.raw ≠ s.buf.raw → receiveCommandOf i = true ∨ ∃ x b, i = .frameLd x b) ∧
    (t.buf.dec ≠ s.buf.dec → handlerCommand i = true ∨ i = .frameNorm) ∧
    (t.drv.mir ≠ s.drv.mir → receiveCommandOf i = true ∨ tuneCommand i = true) ∧
    (t.drv.rxTimedOut ≠ s.drv.rxTimedOut → receiveCommandOf i = true) ∧
    (t.drv.rssiRaw ≠ s.drv.rssiRaw → receiveCommandOf i = true ∨ ∃ f, i = .readRssi f) ∧
    (t.drv.devRst ≠ s.drv.devRst → i = .devReset) ∧ (t.flt ≠ s.flt → busCommand i = true)

/-! ### Reset -/

/-- 10_state.md R54, 70_reset_and_hazards.md R310, R311: a low `rst_n` is acted on before anything else, in every
state; every register takes its reset value (R54), no event is emitted and no response is given (R310, R311). That the
reset is done in one step that releases the line and leaves time and the other inputs as they were is the model's
choice (log 11). -/
def Obligations.CoreResetPutsEveryRegisterBack : Prop :=
  ∀ s : State, s.rstIn = some 0 →
    ∃ t, step s = .next t ∧ t.phase = .idle ∧ t.chk = { crc := s.cfg.crcInit, crcOk := false } ∧
      t.buf = { raw := List.replicate s.cfg.frameLen 0, dec := List.replicate s.cfg.frameLen 0 } ∧
      t.rd = { val := { station := 0, kind := 0, raw := 0, num := 0, den := 1, wspd := 0, wdir := 0, batt := false }
               valid := false, nfts := false } ∧
      t.sync = { hopIndex := 0, hopChan := 0, hopFreq := 0, locked := false, cb := 0, lastGood := 0, lastHop := 0
                 hpOutcome := .timeout, shouldHop := false } ∧
      t.drv.mir = s.cfg.mirReset ∧ t.drv.rxTimedOut = false ∧ t.drv.rssiRaw = 0 ∧ t.drv.devRst = false ∧
      t.flt = { fault := false, errAddr := 0, errRw := false } ∧ t.resp = none ∧ t.trace = s.trace ∧
      t.env = s.env ∧ t.cfg = s.cfg ∧ t.rstIn = none ∧ t.host = s.host

/-- 70_reset_and_hazards.md R311: a core reset that cuts a `DEV_RESET` while the line is high lowers it at once, with
no further event; that it can cut there is the model's placing of the input (log 11). -/
def Obligations.CoreResetCutsTheResetPulse : Prop :=
  ∀ s : State, s.flt.fault = false → s.rstIn = some 1 →
    ∃ t u, exec .devReset s = .next t ∧ t.phase = .rstHigh ∧ t.drv.devRst = true ∧
      t.trace = s.trace ++ [.rst true] ∧ step t = .next u ∧ u.phase = .idle ∧ u.drv.devRst = false ∧
      u.trace = t.trace ∧ u.resp = none

/-- 70_reset_and_hazards.md R310, R311: a command that `rst_n` cuts gives no response, and the core reset that
follows puts the machine back with no event; it can be cut between any two of its transactions, in flight in any of
them, before its answer, in a later turn of its poll, and before anything of it. Which points the input counts is
the model's (log 11). That a turn of the poll is a step is the model's choice (log 10). -/
def Obligations.CommandCutByResetGivesNoResponse : Prop :=
  (∀ (i : Instr) (s t : State), s.rstIn ≠ some 0 → exec i s = .next t → t.rstIn = some 0 →
    t.resp = s.resp ∧
      ∃ u, step t = .next u ∧ u.resp = none ∧ u.trace = t.trace ∧ u.phase = .idle ∧ u.drv.devRst = false ∧
        u.flt.fault = false) ∧
    (∀ s t : State, s.rstIn ≠ some 0 → step s = .next t → t.rstIn = some 0 →
      t.resp = none ∧
        ∃ u, step t = .next u ∧ u.resp = none ∧ u.trace = t.trace ∧ u.phase = .idle ∧ u.drv.devRst = false ∧
          u.flt.fault = false) ∧
    (∀ (s : State) (w : Command) (rest : List HostInput), s.phase = .idle → s.rstIn ≠ some 0 →
      s.host = .cmdCut w :: rest →
        ∃ t, step s = .next t ∧ t.resp = none ∧ t.trace = s.trace ∧ t.rstIn = some 0 ∧ t.host = rest) ∧
    (∀ (s : State) (n : Nat), s.cfg.wf → s.flt.fault = false → s.rstIn = some n → 1 ≤ n → n ≤ 2 * s.cfg.slots →
      s.env.succeeds s.cfg.slots →
        let k := (presentOrder s).getD (n / 2) 0
        exec .syncRegs s =
          .next { s with
            rstIn := some 0
            env := s.env.afterAnswers (n / 2)
            trace := s.trace ++ slotWrites s.cfg s.drv.mir ((presentOrder s).take (n / 2)) ++
              if n % 2 = 1 then [.writeCut (s.cfg.addrAt k) (s.mirAt k)] else [] })

/-- 30_encoding.md R90, 00_scope.md R15, 45_rssi.md R250: with `rst_n` high every command ends in its step with
exactly one response, unless it is one that polls for the RSSI (`READ_RSSI 1`, or a `receive` with
`P_RX_RSSI_TRIGGER = 1`) and is still in its own poll; then it has given none. And every later turn of the poll ends
in the same two ways. That a step ends after each poll read without a ready bit, and that a later turn is a step, is
the model's choice (log 10). -/
def Obligations.EveryCommandAnswersUnlessItPolls : Prop :=
  (∀ (i : Instr) (s : State), s.rstIn = none →
    ∃ t, exec i s = .next t ∧
      ((t.phase = .idle ∧ ∃ r, t.resp = some r) ∨
        ((i = .readRssi true ∨ (receiveCommandOf i = true ∧ s.cfg.rxRssiTrigger = true)) ∧
          pollsFor i t.phase ∧ t.resp = s.resp))) ∧
    ∀ (s : State) (k : Resume), s.rstIn = none → s.phase = .pollRssi k →
      ∃ t, step s = .next t ∧
        ((t.phase = .idle ∧ ∃ r, t.resp = some r) ∨ (t.phase = .pollRssi k ∧ t.resp = none))

/-! ### Host access -/

/-- 47_host_access.md R265: `NOP` does nothing and answers `OK`, in the fault state too; its only word is 0, and a word
with op 0x00 and an `arg` bit set answers `ERR_ILLEGAL`. -/
def Obligations.NopDoesNothing : Prop :=
  (∀ s : State, exec .nop s = .next (ended .ok 0 s)) ∧
    ∀ (s : State) (arg : Word) (rest : List HostInput),
      s.phase = .idle → s.rstIn ≠ some 0 → s.host = .cmd (0x00#8 ++ arg) :: rest →
        step s = .next (ended (if arg = 0 then .ok else .errIllegal) 0 { s with host := rest })

/-- 10_state.md R53, 47_host_access.md R266: `RD r` answers with the register numbered `r`, its fields packed, changes
nothing, and answers `ERR_ARG` for every other number. -/
def Obligations.RdReadsTheRegisterMap : Prop :=
  ∀ (s : State) (r : Byte), s.cfg.wf →
    encode (.rd r) = 0x01#8 ++ 0#24 ++ r ∧
    (registerNumber s.cfg r.toNat → r.toNat ≠ 0x10 →
      exec (.rd r) s = .next (ended .ok (registerNat s r.toNat) s)) ∧
    (r.toNat = 0x10 →
      exec (.rd r) s = .next (ended .ok (s.env.afterLag.time % 2 ^ 32) { s with env := s.env.afterLag })) ∧
    (¬ registerNumber s.cfg r.toNat → exec (.rd r) s = .next (ended .errArg 0 s))

/-! ### The Checksum Engine -/

/-- 40_checksum.md R124, R121: `CRC.TBL b` answers with entry `b` of the table, which is eight rounds on the index in
the high byte, and writes nothing; entry 0 is 0 and entry 1 is the polynomial. -/
def Obligations.CrcTblReadsTheTable : Prop :=
  (∀ b : Byte, encode (.crcTbl b) = 0x10#8 ++ 0#24 ++ b) ∧
  (∀ (s : State) (b : Byte), s.flt.fault = false →
    exec (.crcTbl b) s = .next (ended .ok (eightRounds s.cfg.poly (b ++ 0#8)).toNat s)) ∧
    ∀ p : Half, eightRounds p (0x00#8 ++ 0#8) = 0 ∧ eightRounds p (0x01#8 ++ 0#8) = p

/-- 40_checksum.md R125: `CRC.INIT h` loads the running CRC and touches nothing else. -/
def Obligations.CrcInitLoadsTheCrc : Prop :=
  ∀ (s : State) (h : Half), s.flt.fault = false →
    encode (.crcInit h) = 0x11#8 ++ 0#16 ++ h ∧
    exec (.crcInit h) s = .next (ended .ok h.toNat { s with chk := { s.chk with crc := h } })

/-- 40_checksum.md R121, R122, R126: `CRC.BYTE b` is eight rounds of the bitwise division on the running CRC with the
byte exclusive-ored into its high byte; it writes `crc` alone. -/
def Obligations.CrcByteIsEightRoundsOfDivision : Prop :=
  ∀ (s : State) (b : Byte), s.flt.fault = false →
    exec (.crcByte b) s =
      .next (ended .ok (eightRounds s.cfg.poly (s.chk.crc ^^^ (b ++ 0#8))).toNat
        { s with chk := { s.chk with crc := eightRounds s.cfg.poly (s.chk.crc ^^^ (b ++ 0#8)) } })

/-- 40_checksum.md R127, R123: `CRC.FRAME` leaves the checksum of the DecodedFrame in `crc` and whether it is the residue
in `crc_ok`, answers with both, and writes nothing else. -/
def Obligations.CrcFrameVerifiesTheDecodedFrame : Prop :=
  encode .crcFrame = 0x1300000000 ∧
  ∀ s : State, s.flt.fault = false →
    ∃ crc : Half, crc = checksum s.cfg s.cfg.crcInit s.buf.dec ∧
      exec .crcFrame s =
        .next (ended .ok (crc.toNat + 65536 * bit (decide (crc = s.cfg.residue)))
          { s with chk := { crc := crc, crcOk := decide (crc = s.cfg.residue) } })

/-- 40_checksum.md R129: the CRC of a payload, appended high byte first, takes the running CRC to 0, for every
polynomial and every initial value; and with the reference polynomial no other two bytes do. -/
def Obligations.OnlyItsOwnCrcMakesAPayloadValid : Prop :=
  ∀ (c : Config) (init : Half) (payload : List Byte) (hi lo : Byte),
    (hi ++ lo = checksum c init payload → checksum c init (payload ++ [hi, lo]) = 0) ∧
    (c.poly = 0x1021 → checksum c init (payload ++ [hi, lo]) = 0 → hi ++ lo = checksum c init payload)

/-- 40_checksum.md R132 (a) to (c): the checksum is linear over exclusive-or, zero on zeros, and a fold over
concatenation. -/
def Obligations.ChecksumIsLinear : Prop :=
  ∀ (c : Config) (a b : Half) (x y : List Byte),
    (x.length = y.length →
      checksum c (a ^^^ b) (List.zipWith (· ^^^ ·) x y) = checksum c a x ^^^ checksum c b y) ∧
    (∀ n, checksum c 0 (List.replicate n 0) = 0) ∧
    checksum c a (x ++ y) = checksum c (checksum c a x) y

/-- 40_checksum.md R132 (e): with the reference polynomial, one flipped bit anywhere in a frame of any length changes
its checksum, so a structurally valid frame becomes invalid. -/
def Obligations.OneFlippedBitIsDetected : Prop :=
  ∀ (c : Config) (init : Half) (frame : List Byte) (i k : Nat), c.poly = 0x1021 → i < frame.length → k < 8 →
    checksum c init (frame.set i (frame.getD i 0 ^^^ (1#8 <<< k))) ≠ checksum c init frame

/-! ### The codec -/

/-- 41_bitrev_codec.md R141, R143: `BITREV b` answers with the byte whose bit `i` is bit `7 - i` of `b`, and writes
nothing; twice is the identity, and the bytes that map to themselves are the sixteen palindromes. -/
def Obligations.BitrevReversesAByte : Prop :=
  (∀ b : Byte, encode (.bitrev b) = 0x20#8 ++ 0#24 ++ b) ∧
  (∀ b : Byte, bitrev8 b = b ↔ b ∈ ([0x00, 0x18, 0x24, 0x3C, 0x42, 0x5A, 0x66, 0x7E, 0x81, 0x99, 0xA5, 0xBD, 0xC3,
    0xDB, 0xE7, 0xFF] : List Byte)) ∧
  (∀ (s : State) (b : Byte), s.flt.fault = false →
    exec (.bitrev b) s = .next (ended .ok (bitrev8 b).toNat s)) ∧
    ∀ b : Byte, bitrev8 (bitrev8 b) = b ∧ ∀ i < 8, (bitrev8 b).getLsbD i = b.getLsbD (7 - i)

/-- 41_bitrev_codec.md R144: `FRAME.LD i, b` writes `raw[i]` and nothing else when `i < FRAME_LEN`, and answers
`ERR_ARG` otherwise. -/
def Obligations.FrameLdWritesOneRawByte : Prop :=
  ∀ (s : State) (i : BitVec 4) (b : Byte), Memory.wf s → s.flt.fault = false →
    encode (.frameLd i b) = 0x21#8 ++ 0#20 ++ i ++ b ∧
    (i.toNat < s.cfg.frameLen →
      ∃ t, exec (.frameLd i b) s = .next t ∧ t.rawAt i.toNat = b ∧
        (∀ j, j ≠ i.toNat → t.rawAt j = s.rawAt j) ∧ t.buf.raw.length = s.buf.raw.length ∧
        t = ended .ok 0 { s with buf := { s.buf with raw := t.buf.raw } }) ∧
    (s.cfg.frameLen ≤ i.toNat → exec (.frameLd i b) s = .next (ended .errArg 0 s))

/-- 41_bitrev_codec.md R142, R145: `FRAME.NORM` makes every `dec[i]` the bit reversal of `raw[i]`, leaves everything
else, and a second one changes nothing more. -/
def Obligations.FrameNormReversesEveryByte : Prop :=
  encode .frameNorm = 0x2200000000 ∧
  ∀ s : State, s.flt.fault = false →
    ∃ t, exec .frameNorm s = .next t ∧ t = ended .ok 0 { s with buf := { s.buf with dec := t.buf.dec } } ∧
      t.buf.dec.length = s.buf.raw.length ∧
      (∀ i < s.buf.raw.length, ∀ j < 8, (t.decAt i).getLsbD j = (s.rawAt i).getLsbD (7 - j)) ∧
      exec .frameNorm t = .next t

/-- 41_bitrev_codec.md R146 to R148, R161: `DECODE` on a frame for another station sets `nfts` and leaves the Reading
values; on a frame for this station it stores `decode_fields(dec)`, every field of which is taken from the frame, the
fraction as the rule of its kind gives it; `rd_valid` is 0 either way. -/
def Obligations.DecodeReadsTheFields : Prop :=
  ∀ s : State, s.flt.fault = false →
    ((s.decAt 0).toNat % 16 ≠ s.cfg.stationNumber % 16 →
      exec .decodeFrame s = .next (ended .ok 1 { s with rd := { s.rd with valid := false, nfts := true } })) ∧
    ((s.decAt 0).toNat % 16 = s.cfg.stationNumber % 16 →
      let v := decodeFields s.cfg.kinds s.buf.dec
      exec .decodeFrame s = .next (ended .ok 0 { s with rd := { val := v, valid := false, nfts := false } }) ∧
        v.station.toNat = (s.decAt 0).toNat % 16 ∧ v.kind.toNat = (s.decAt 0).toNat / 16 ∧
        v.batt = (s.decAt 0).getLsbD 3 ∧ v.wspd = s.decAt 1 ∧ v.wdir = s.decAt 2 ∧
        v.raw.toNat = (s.decAt 3).toNat * 65536 + (s.decAt 4).toNat * 256 + (s.decAt 5).toNat ∧
        (v.num.toNat, v.den.toNat) = documentFraction s.cfg.kinds v.kind (s.decAt 3).toNat (s.decAt 4).toNat)

/-- 41_bitrev_codec.md R150 to R160: the stored fraction is the document's value for the frame's kind, exactly, and
its denominator is one of 1, 10, 16, 100, 160. -/
def Obligations.DecodedValueIsTheDocumentsFormula : Prop :=
  ∀ (c : Config) (dec : List Byte), c.wf →
    let v := decodeFields c.kinds dec
    (v.num.toNat : ℚ) / (v.den.toNat : ℚ) =
        documentValue c.kinds v.kind (dec.getD 3 0).toNat (dec.getD 4 0).toNat ∧
      v.den.toNat ∈ [1, 10, 16, 100, 160]

/-- 41_bitrev_codec.md R161, 30_encoding.md R105: the codec reads bytes 0 to 5 only. Two DecodedFrames that agree on
them give the same Reading, whatever their other bytes and their CRC. -/
def Obligations.DecodeIgnoresTheBytesAfterFive : Prop :=
  ∀ (s : State) (other : List Byte), (∀ i < 6, other.getD i 0 = s.decAt i) →
    ∃ t u, exec .decodeFrame s = .next t ∧
      exec .decodeFrame { s with buf := { s.buf with dec := other } } = .next u ∧ u.rd = t.rd ∧ u.resp = t.resp

/-- 30_encoding.md R102, R103, R108, 41_bitrev_codec.md R148, R150, 45_rssi.md R248: what the host computes from the
stored registers is exact: the value of a Reading is the document's, its wind speed is byte 1, its wind direction is
byte 2 times 360 / 255 degrees, and the RSSI of a raw byte is minus half of it in dBm, from 0 down to -127.5, a larger
byte being a weaker signal. -/
def Obligations.StoredRegistersConvertExactly : Prop :=
  (∀ s : State, s.cfg.wf → s.flt.fault = false → (s.decAt 0).toNat % 16 = s.cfg.stationNumber % 16 →
    ∃ t, exec .decodeFrame s = .next t ∧
      t.rd.val.decoded = documentValue s.cfg.kinds t.rd.val.kind (s.decAt 3).toNat (s.decAt 4).toNat ∧
      t.rd.val.windSpeed = (s.decAt 1).toNat ∧
      t.rd.val.windDegrees * 255 = (s.decAt 2).toNat * 360 ∧
      (s.decAt 2 = 255 → t.rd.val.windDegrees = 360) ∧ (s.decAt 2 = 0 → t.rd.val.windDegrees = 0) ∧
      (s.decAt 2 = 128 → t.rd.val.windDegrees = 3072 / 17) ∧
      0 ≤ t.rd.val.windDegrees ∧ t.rd.val.windDegrees ≤ 360) ∧
    (∀ s : State, s.clear → s.env.succeeds 1 →
      ∃ t, exec (.readRssi false) s = .next t ∧
        rssiDbm t.drv.rssiRaw * 2 + s.env.nextAnswer.data.toNat = 0) ∧
    rssiDbm 0 = 0 ∧ rssiDbm 0x5B = -91 / 2 ∧ rssiDbm 0xB4 = -90 ∧ rssiDbm 255 = -255 / 2 ∧
    ∀ a b : Byte, a.toNat < b.toNat ↔ rssiDbm b < rssiDbm a

/-! ### The hop-sequence state machine -/

/-- 42_hop_sync.md R171 to R181: `HPKT.I f` and `HPKT.R` do what the transition table says on the path the frame
takes, write the checksum, the DecodedFrame and the Reading as that path says, and answer `hp_result`. -/
def Obligations.HandlerFollowsTheTransitionTable : Prop :=
  ∀ (s : State) (f : Bool), s.RegInv → s.flt.fault = false →
    exec (.hpktI f) s = .next (ended .ok (hpResultNat (afterHandle f s)) (afterHandle f s)) ∧
    exec .hpktR s =
      .next (ended .ok (hpResultNat (afterHandle s.drv.rxTimedOut s)) (afterHandle s.drv.rxTimedOut s))

/-- 10_state.md R55 (d), R36: after a handler command, also one that ended in a later turn of its poll, with
`rd_valid = 1` the CRC was valid, the frame was for this station, the machine is LOCKED, and the battery flag is bit
3 of the station filter. That a later turn of the poll is a step is the model's choice (log 10). -/
def Obligations.ValidReadingMeansVerifiedAndAddressed : Prop :=
  ∀ (i : Instr) (s t : State), s.cfg.wf → handlerCommand i = true → s.clear → s.resp = none →
    turnOf i s t → (∃ v, t.resp = some { status := .ok, result := v }) → t.rd.valid = true →
      t.rd.nfts = false ∧ t.chk.crcOk = true ∧ t.sync.hpOutcome = .good ∧ t.sync.locked = true ∧
        t.rd.val.station = s.cfg.stationFilter ∧ t.rd.val.batt = s.cfg.stationFilter.getLsbD 3

/-- 42_hop_sync.md R180, R182: from LOCKED with `cb = 0`, fewer than P_BAD_THRESHOLD timeouts in a row keep the
machine LOCKED and count up; one more, the threshold's, makes it SEARCHING with the counter at 0; and a good frame
before that keeps it LOCKED and puts the counter back to 0. -/
def Obligations.ThresholdTimeoutsLoseTheLock : Prop :=
  ∀ (s : State) (n : Nat), s.RegInv → s.flt.fault = false → s.sync.locked = true → s.sync.cb = 0 →
    n ≤ s.cfg.badThreshold →
      ∃ t, runAll (List.replicate n (.hpktI true)) s = .next t ∧
        (n < s.cfg.badThreshold → t.sync.locked = true ∧ t.sync.cb.toNat = n ∧
          (handlerPath s false = .good →
            ∃ u, exec (.hpktI false) t = .next u ∧ u.sync.locked = true ∧ u.sync.cb = 0)) ∧
        (n = s.cfg.badThreshold → t.sync.locked = false ∧ t.sync.cb = 0)

/-- 42_hop_sync.md R178, R182: when `HPKT.I` leaves the machine SEARCHING and says to hop, at least `dwell` true ticks
have passed since the true time of the last hop; and when that many have passed, and fewer than 2^32, an `HPKT.I 1`
that leaves it SEARCHING says to hop. -/
def Obligations.SearchingHopsArePaced : Prop :=
  ∀ (f : Bool) (s t : State) (hopTime : Nat), s.flt.fault = false → s.sync.lastHop = BitVec.ofNat 32 hopTime →
    hopTime ≤ s.env.time → exec (.hpktI f) s = .next t → t.sync.locked = false →
      (t.sync.shouldHop = true → hopTime + s.cfg.dwell.toNat ≤ t.env.time) ∧
      (f = true → t.env.time < hopTime + 2 ^ 32 → hopTime + s.cfg.dwell.toNat ≤ t.env.time →
        t.sync.shouldHop = true)

/-- 42_hop_sync.md R175, R178, R182: when any handler command (`HPKT.I`, `HPKT.R`, `LOOP.STEP`) answers `OK`, in its
first step or in a later turn of its poll, leaves the machine SEARCHING and says to hop, at least `dwell` true ticks
have passed since the true time of the last hop before it; and when it is SEARCHING after it, the frame was not
another station's, and that many and fewer than 2^32 ticks have passed, it says to hop. That a later turn of the
poll is a step is the model's choice (log 10). -/
def Obligations.EverySearchingVerdictIsPaced : Prop :=
  ∀ (i : Instr) (s t : State) (hopTime : Nat), handlerCommand i = true → s.flt.fault = false → s.resp = none →
    s.sync.lastHop = BitVec.ofNat 32 hopTime → hopTime ≤ s.env.time → turnOf i s t →
      (∃ v, t.resp = some { status := .ok, result := v }) → t.sync.locked = false →
        (t.sync.shouldHop = true → hopTime + s.cfg.dwell.toNat ≤ t.env.time) ∧
        (t.sync.hpOutcome ≠ .wrongStation → t.env.time < hopTime + 2 ^ 32 →
          hopTime + s.cfg.dwell.toNat ≤ t.env.time → t.sync.shouldHop = true)

/-! ### The channel plan -/

/-- 43_channel_plan.md R191, R192: `PLAN.FREQ b` and `PLAN.HOP b` answer with the entry of their table when `b < P_N`
and with `ERR_ARG` otherwise; they write nothing. -/
def Obligations.PlanReadsAnswerTheTables : Prop :=
  ∀ (s : State) (b : Byte), s.cfg.wf → s.flt.fault = false →
    encode (.planFreq b) = 0x40#8 ++ 0#24 ++ b ∧ encode (.planHop b) = 0x41#8 ++ 0#24 ++ b ∧
    (b.toNat < s.cfg.channels →
      (∃ f, s.cfg.freq[b.toNat]? = some f ∧ exec (.planFreq b) s = .next (ended .ok f.toNat s)) ∧
      ∃ h, s.cfg.hop[b.toNat]? = some h ∧ h < s.cfg.channels ∧ exec (.planHop b) s = .next (ended .ok h s)) ∧
    (s.cfg.channels ≤ b.toNat →
      exec (.planFreq b) s = .next (ended .errArg 0 s) ∧ exec (.planHop b) s = .next (ended .errArg 0 s))

/-- 43_channel_plan.md R193: `NEXT_HOP` takes the channel of the present hop index and its carrier, moves the index on
by one modulo P_N, stamps `last_hop` with its sample of `now`, answers with the carrier, and writes nothing else,
in either sync state. -/
def Obligations.NextHopTakesTheNextChannel : Prop :=
  encode .nextHop = 0x4200000000 ∧
  ∀ s : State, s.RegInv → s.flt.fault = false →
    ∃ chan freq, s.cfg.hop[s.sync.hopIndex.toNat]? = some chan ∧ s.cfg.freq[chan]? = some freq ∧
      exec .nextHop s =
        .next (ended .ok freq.toNat
          { s with
            env := s.env.afterLag
            sync := { s.sync with
              hopChan := BitVec.ofNat 8 chan
              hopFreq := freq
              hopIndex := BitVec.ofNat 8 ((s.sync.hopIndex.toNat + 1) % s.cfg.channels)
              lastHop := BitVec.ofNat 32 s.env.afterLag.time } })

/-- 43_channel_plan.md R194: P_N hops in a row return every channel index exactly once, whatever the hop index they
start from, and the next hop repeats the first. -/
def Obligations.HopsVisitEveryChannelOncePerPeriod : Prop :=
  ∀ s : State, s.RegInv → s.flt.fault = false →
    ∃ ts : List State, ts.length = s.cfg.channels + 1 ∧
      (∀ k, ∀ t, ts[k]? = some t → runAll (List.replicate (k + 1) .nextHop) s = .next t) ∧
      List.Perm ((ts.take s.cfg.channels).map fun t => t.sync.hopChan.toNat) (List.range s.cfg.channels) ∧
      (ts[s.cfg.channels]?).map (fun t => t.sync.hopChan) = (ts[0]?).map fun t => t.sync.hopChan

/-! ### The transceiver -/

/-- 44_transceiver.md R212, R214: `SYNC_REGS` writes every slot once, mode last when the mirror says RX and first
otherwise, answers `OK` and changes no register. -/
def Obligations.SyncRegsPushesTheMirror : Prop :=
  ∀ s : State, s.cfg.wf → s.clear → s.env.succeeds s.cfg.slots →
    exec .syncRegs s =
      .next (ended .ok 0
        { s with
          env := s.env.afterAnswers s.cfg.slots
          trace := s.trace ++ slotWrites s.cfg s.drv.mir
            (if s.mirAt 0 &&& s.cfg.modeMask = s.cfg.modeRx then modeLast s.cfg else modeFirst s.cfg) })

/-- 44_transceiver.md R213: whatever transactions succeed, and wherever `rst_n` cuts it, a `SYNC_REGS` writes an RX mode byte only after every other
slot has been written with the mirror's value in the same push, and a mode byte that is not RX before any other
slot. -/
def Obligations.PushNeverEntersRxWithStaleSettings : Prop :=
  ∀ s t : State, s.RegInv → s.flt.fault = false → exec .syncRegs s = .next t →
    ∃ evs, t.trace = s.trace ++ evs ∧
      ∀ before after e b, writesByte e (s.cfg.addrAt 0) b → evs = before ++ e :: after →
        if b &&& s.cfg.modeMask = s.cfg.modeRx then
          ∀ k, 1 ≤ k → k < s.cfg.slots → .write (s.cfg.addrAt k) (s.mirAt k) true ∈ before
        else before = []

/-- 44_transceiver.md R209 to R217: `SET_FREQ.I w` and `SET_FREQ.H` put the standby mode in slot 0 and the frequency
word in slots 1 to 3, push every slot with the mode byte first, answer with the word, and change nothing else. -/
def Obligations.SetFreqProgramsTheCarrier : Prop :=
  ∀ (s : State) (w : Word), s.RegInv → s.clear → s.env.succeeds s.cfg.slots →
    (frequencyWord s.cfg w < 2 ^ 24 →
      exec (.setFreqI w) s = .next (ended .ok (frequencyWord s.cfg w) (afterTune w s))) ∧
    (frequencyWord s.cfg s.sync.hopFreq < 2 ^ 24 →
      exec .setFreqH s = .next (ended .ok (frequencyWord s.cfg s.sync.hopFreq) (afterTune s.sync.hopFreq s)))

/-- 60_exceptions.md R278, 20_memory.md R73: when write number `k` of a `SET_FREQ.I` fails, the writes before it stand,
none follows it, the mirror holds the whole new carrier, and `fault`, `err_addr`, `err_rw` and the answer name the
failed transaction; nothing else changes. -/
def Obligations.FailedPushStopsAtTheFailedWrite : Prop :=
  ∀ (s : State) (w : Word) (k : Nat), s.RegInv → s.clear → frequencyWord s.cfg w < 2 ^ 24 → k < s.cfg.slots →
    s.env.succeeds k → (s.env.afterAnswers k).nextAnswer.ok = false →
      exec (.setFreqI w) s =
        .next (ended .errBus (s.cfg.addrAt k).toNat
          { s with
            drv := { s.drv with mir := tunedMirror s w }
            flt := { fault := true, errAddr := s.cfg.addrAt k, errRw := false }
            env := s.env.afterAnswers (k + 1)
            trace := s.trace ++ slotWrites s.cfg (tunedMirror s w) (List.range k) ++
              [.write (s.cfg.addrAt k) ((tunedMirror s w).getD k 0) false] })

/-- 44_transceiver.md R220 to R223: `RECEIVE.I w` and `RECEIVE.D` enter RX with the mode byte last, wait at most their
timeout for a rising edge, sample the RSSI once, return to standby with the mode byte first, read the payload only
when the edge came, answer with the RSSI and the timed-out flag, and change nothing else. -/
def Obligations.ReceiveMakesOneAttempt : Prop :=
  ∀ (s : State) (w : Word), receiveGoesThrough s 0 →
    (∃ ticks fired prev, waitEnds s.env (s.env.afterAnswers s.cfg.slots).time w.toNat ticks fired ∧
      exec (.receiveI w) s =
        .next (ended .ok ((afterReceive s ticks fired prev).drv.rssiRaw.toNat * 256 + bit (!fired))
          (afterReceive s ticks fired prev))) ∧
    (∃ ticks fired prev, waitEnds s.env (s.env.afterAnswers s.cfg.slots).time s.cfg.dwell.toNat ticks fired ∧
      exec .receiveD s =
        .next (ended .ok ((afterReceive s ticks fired prev).drv.rssiRaw.toNat * 256 + bit (!fired))
          (afterReceive s ticks fired prev)))

/-- 60_exceptions.md R278, 44_transceiver.md R220: when payload read number `k` of a `RECEIVE.I` fails, the bytes before
it are in `raw`, the bytes from it on are as before, `rx_timed_out` is not written, the RSSI is, the mirror says
standby, and `fault`, `err_addr`, `err_rw` and the answer name a read of the payload buffer. -/
def Obligations.FailedPayloadReadKeepsTheBytesBeforeIt : Prop :=
  ∀ (s : State) (w : Word) (k ticks : Nat), s.RegInv → s.clear → k < s.cfg.frameLen →
    (s.cfg.rxRssiTrigger = true → s.env.answerAt (s.cfg.slots + 1) &&& s.cfg.rssiDone ≠ 0) →
    waitEnds s.env (s.env.afterAnswers s.cfg.slots).time w.toNat ticks true →
    let before := s.cfg.slots + sampleSteps s.cfg.rxRssiTrigger + s.cfg.slots
    s.env.succeeds (before + k) → (s.env.afterAnswers (before + k)).nextAnswer.ok = false →
      ∃ t, exec (.receiveI w) s = .next t ∧
        t.buf.raw = s.env.answersFrom before k ++ s.buf.raw.drop k ∧
        t.drv.rxTimedOut = s.drv.rxTimedOut ∧
        t.drv.rssiRaw = s.env.answerAt (s.cfg.slots + sampleSteps s.cfg.rxRssiTrigger - 1) ∧
        t.drv.mir = mirrorInMode s s.cfg.modeStandby ∧
        t.flt = { fault := true, errAddr := s.cfg.addrFifo, errRw := true } ∧ t.phase = .idle ∧
        t.resp = some { status := .errBus, result := BitVec.ofNat 32 (256 + s.cfg.addrFifo.toNat) } ∧
        t.buf.dec = s.buf.dec ∧ t.chk = s.chk ∧ t.rd = s.rd ∧ t.sync = s.sync ∧ t.drv.devRst = s.drv.devRst ∧
        t.cfg = s.cfg ∧ t.host = s.host

/-- 60_exceptions.md R278, 44_transceiver.md R212: when write number `k` of the push of `SYNC_REGS`, `DEV_RESET`,
`SET_FREQ.H` or `LOOP.INIT` fails, the writes before it stand, none follows it, every change made before it stays (the
mirror's new carrier, the hop that was taken, the pulse), and `fault`, `err_addr`, `err_rw` and the answer name it. -/
def Obligations.FailedPushEndsSyncRegsDevResetSetFreqHAndLoopInit : Prop :=
  ∀ (s : State) (k : Nat), s.RegInv → s.clear → k < s.cfg.slots → failsAt s.env k →
    exec .syncRegs s = .next (failedPush (presentOrder s) k s) ∧
    (s.drv.devRst = false → exec .devReset s = .next (failedPush (presentOrder s) k (afterPulse s))) ∧
    (frequencyWord s.cfg s.sync.hopFreq < 2 ^ 24 →
      exec .setFreqH s =
        .next (failedPush (modeFirst s.cfg) k (withMirror (tunedMirror s s.sync.hopFreq) s))) ∧
    (frequencyWord s.cfg (afterHop s).sync.hopFreq < 2 ^ 24 →
      exec .loopInit s =
        .next (failedPush (modeFirst s.cfg) k
          (withMirror (tunedMirror (afterHop s) (afterHop s).sync.hopFreq) (afterHop s))))

/-- 60_exceptions.md R278, 44_transceiver.md R220, 45_rssi.md R249: `RECEIVE.I`, `RECEIVE.D` and `LOOP.STEP` stop at
the first transaction that fails, in the push into RX, the RSSI sample, the push into standby or the payload. What
came before stays (the mirror's mode, the RSSI once sampled, the payload bytes read) and what comes after is not
done: `rx_timed_out` and the rest of `raw` keep their values. So also when the command goes on to the push into
standby and the payload in a later turn of its poll. That the step that sees the ready bit also does the push and
the payload is the model's choice (log 10). -/
def Obligations.FailedReceiveStopsAtItsFailedTransaction : Prop :=
  (∀ (i : Instr) (s : State) (timeout : Nat), receiveTimeout s i = some timeout → s.RegInv → s.clear →
    argumentInRange s i →
    (∀ k < s.cfg.slots, failsAt s.env k →
      exec i s = .next (failedPush (modeLast s.cfg) k (withMirror (mirrorInMode s s.cfg.modeRx) s))) ∧
    (s.env.succeeds s.cfg.slots →
      ∃ ticks fired prev, waitEnds s.env (s.env.afterAnswers s.cfg.slots).time timeout ticks fired ∧
        let w := afterWait s ticks fired prev
        (∀ j < sampleSteps s.cfg.rxRssiTrigger, failsAt w.env j →
          (j = 2 → w.env.answerAt 1 &&& s.cfg.rssiDone ≠ 0) →
            exec i s = .next (failedSample s.cfg.rxRssiTrigger j w)) ∧
        (w.env.succeeds (sampleSteps s.cfg.rxRssiTrigger) →
          (s.cfg.rxRssiTrigger = true → w.env.answerAt 1 &&& s.cfg.rssiDone ≠ 0) →
            let v := withMirror (mirrorInMode s s.cfg.modeStandby) (afterSample w)
            (∀ k < s.cfg.slots, failsAt v.env k → exec i s = .next (failedPush (modeFirst s.cfg) k v)) ∧
            (v.env.succeeds s.cfg.slots → fired = true →
              let p := pushed (modeFirst s.cfg) s.cfg.slots v
              ∀ k < s.cfg.frameLen, failsAt p.env k →
                exec i s = .next (failedRead s.cfg.addrFifo (afterPayload k p)))))) ∧
    ∀ (s : State) (fired : Bool), s.RegInv → s.clear →
      (s.phase = .pollRssi (.receive fired) ∨ s.phase = .pollRssi (.loopStep fired)) →
      s.env.succeeds 2 → s.env.answerAt 0 &&& s.cfg.rssiDone ≠ 0 →
        let v := withMirror (mirrorInMode s s.cfg.modeStandby) (afterReady s)
        (∀ k < s.cfg.slots, failsAt v.env k → step s = .next (failedPush (modeFirst s.cfg) k v)) ∧
        (v.env.succeeds s.cfg.slots → fired = true →
          let p := pushed (modeFirst s.cfg) s.cfg.slots v
          ∀ k < s.cfg.frameLen, failsAt p.env k →
            step s = .next (failedRead s.cfg.addrFifo (afterPayload k p)))

/-- 44_transceiver.md R228: `DEV_RESET` raises the line, waits, lowers it, waits, pushes the mirror as it stands,
answers `OK`, and leaves every register as it was. -/
def Obligations.DevResetPulsesTheLineAndPushes : Prop :=
  ∀ s : State, s.RegInv → s.drv.devRst = false → s.clear → s.env.succeeds s.cfg.slots →
    exec .devReset s =
      .next (ended .ok 0
        { s with
          env := (s.env.afterAnswers s.cfg.slots).pass (s.cfg.rstHigh.toNat + s.cfg.rstSettle.toNat)
          trace := s.trace ++ [.rst true, .delay s.cfg.rstHigh.toNat, .rst false, .delay s.cfg.rstSettle.toNat] ++
            slotWrites s.cfg s.drv.mir
              (if s.mirAt 0 &&& s.cfg.modeMask = s.cfg.modeRx then modeLast s.cfg else modeFirst s.cfg) })

/-! ### The RSSI sampler -/

/-- 45_rssi.md R246, R249: `READ_RSSI 0` is one read of the value register; `READ_RSSI 1` writes the trigger, and when
the first poll shows a ready bit reads the value; each stores the raw byte, answers with it, and changes nothing
else. -/
def Obligations.ReadRssiStoresTheRawByte : Prop :=
  ∀ s : State, s.clear →
    (s.env.succeeds 1 →
      exec (.readRssi false) s =
        .next (ended .ok s.env.nextAnswer.data.toNat
          { s with
            drv := { s.drv with rssiRaw := s.env.nextAnswer.data }
            env := s.env.afterAnswers 1
            trace := s.trace ++ [.read s.cfg.addrRssiVal (some s.env.nextAnswer.data)] })) ∧
    (s.env.succeeds 3 → s.env.answerAt 1 &&& s.cfg.rssiDone ≠ 0 →
      exec (.readRssi true) s =
        .next (ended .ok (s.env.answerAt 2).toNat
          { s with
            drv := { s.drv with rssiRaw := s.env.answerAt 2 }
            env := s.env.afterAnswers 3
            trace := s.trace ++ [.write s.cfg.addrRssiCfg s.cfg.rssiStart true,
              .read s.cfg.addrRssiCfg (some (s.env.answerAt 1)),
              .read s.cfg.addrRssiVal (some (s.env.answerAt 2))] }))

/-- 60_exceptions.md R278, 45_rssi.md R246, R249: when the trigger write, the first poll read or the value read of a
`READ_RSSI` fails, `rssi_raw` keeps its value and nothing but the fault registers, the answer and the trace changes;
so also when a later poll read, or the value read after it, of any command that polls fails. That a later turn is a
step with one poll read, and that the value is read in the step that sees the ready bit, is the model's choice (log
10). -/
def Obligations.FailedRssiTransactionKeepsTheOldByte : Prop :=
  ∀ s : State, s.clear →
    (∀ (trigger : Bool) (j : Nat), j < sampleSteps trigger → failsAt s.env j →
      (j = 2 → s.env.answerAt 1 &&& s.cfg.rssiDone ≠ 0) →
        exec (.readRssi trigger) s = .next (failedSample trigger j s)) ∧
    (∀ k : Resume, s.phase = .pollRssi k →
      (failsAt s.env 0 → step s = .next (failedRead s.cfg.addrRssiCfg s)) ∧
      (failsAt s.env 1 → s.env.answerAt 0 &&& s.cfg.rssiDone ≠ 0 →
        step s = .next (failedRead s.cfg.addrRssiVal (afterPoll s))))

/-- 45_rssi.md R246, R247, R249, R250, 44_transceiver.md R220: when the trigger write succeeds and the first poll shows no
ready bit, `READ_RSSI 1`, and `RECEIVE.I`, `RECEIVE.D` and `LOOP.STEP` with `P_RX_RSSI_TRIGGER = 1`, are in their own poll,
those that receive after their push into RX and their own wait: the trace is that of the trigger and one poll, no
response is given, `rssi_raw`, `rx_timed_out` and every other register keep their values. That the step ends there is
the model's (log 10). -/
def Obligations.UnreadyFirstPollLeavesTheCommandInItsPoll : Prop :=
  (∀ s : State, s.clear → s.env.succeeds 2 → s.env.answerAt 1 &&& s.cfg.rssiDone = 0 →
    exec (.readRssi true) s = .next { afterPoll (afterTrigger s) with phase := .pollRssi .readRssi }) ∧
  ∀ (i : Instr) (s : State) (timeout : Nat), receiveTimeout s i = some timeout → s.RegInv → s.clear →
    argumentInRange s i → s.cfg.rxRssiTrigger = true → s.env.succeeds (s.cfg.slots + 2) →
    s.env.answerAt (s.cfg.slots + 1) &&& s.cfg.rssiDone = 0 →
      ∃ ticks fired prev k, waitEnds s.env (s.env.afterAnswers s.cfg.slots).time timeout ticks fired ∧
        pollOf fired i = some k ∧
        exec i s = .next { afterPoll (afterTrigger (afterWait s ticks fired prev)) with phase := .pollRssi k }

/-- 45_rssi.md R247: the poll of every command that polls goes on exactly as long as no answer has a ready bit: after
any number of such answers the command has not answered, the port is not ready, and nothing but the trace and the
inputs has changed. One read a step is the model's (log 10). -/
def Obligations.RssiPollGoesOnUntilTheReadyBit : Prop :=
  ∀ (s : State) (k : Resume) (n : Nat), s.phase = .pollRssi k → s.rstIn = none → s.resp = none →
    s.env.succeeds n → (∀ a ∈ s.env.answers n, a.data &&& s.cfg.rssiDone = 0) →
      Sys2Proof.core.run n s =
        .next { s with
          env := s.env.afterAnswers n
          trace := s.trace ++ (s.env.answers n).map fun a => .read s.cfg.addrRssiCfg (some a.data) }

/-- 45_rssi.md R247, R249, 44_transceiver.md R220, 46_receive_loop.md R257: the first answer with a ready bit ends the
poll and the command that polls goes on from there to its end: `READ_RSSI 1` stores and answers the value, `RECEIVE.*`
returns to standby and reads its payload, `LOOP.STEP` decides and hops. That it goes on in one step is the model's
(log 10). -/
def Obligations.ReadyBitEndsThePollAndTheCommandGoesOn : Prop :=
  ∀ (s : State) (fired : Bool), s.Inv → s.rstIn = none → s.env.answerAt 0 &&& s.cfg.rssiDone ≠ 0 →
    s.env.succeeds (2 + s.cfg.slots + s.cfg.frameLen + s.cfg.slots) →
      (s.phase = .pollRssi .readRssi →
        step s =
          .next (ended .ok (s.env.answerAt 1).toNat
            { s with
              drv := { s.drv with rssiRaw := s.env.answerAt 1 }
              env := s.env.afterAnswers 2
              trace := s.trace ++ [.read s.cfg.addrRssiCfg (some (s.env.answerAt 0)),
                .read s.cfg.addrRssiVal (some (s.env.answerAt 1))] })) ∧
      (s.phase = .pollRssi (.receive fired) →
        step s =
          .next (ended .ok ((s.env.answerAt 1).toNat * 256 + bit (!fired)) (afterPolledReceive s fired))) ∧
      (s.phase = .pollRssi (.loopStep fired) → frequencyWord s.cfg (afterHop s).sync.hopFreq < 2 ^ 24 →
        let h := afterHandle (!fired) (afterPolledReceive s fired)
        step s =
          .next (ended .ok (hpResultNat h)
            (if h.sync.shouldHop then afterTune (afterHop h).sync.hopFreq (afterHop h) else h)))

/-! ### The receive loop -/

/-- 46_receive_loop.md R256: `LOOP.INIT` takes the next hop, programs its carrier and answers with it. -/
def Obligations.LoopInitHopsAndTunes : Prop :=
  ∀ s : State, s.RegInv → s.clear → s.env.succeeds s.cfg.slots →
    frequencyWord s.cfg (afterHop s).sync.hopFreq < 2 ^ 24 →
      exec .loopInit s =
        .next (ended .ok (afterHop s).sync.hopFreq.toNat (afterTune (afterHop s).sync.hopFreq (afterHop s)))

/-- 46_receive_loop.md R257: `LOOP.STEP` receives for one dwell, decides, hops and tunes when told to, and answers
`hp_result`. -/
def Obligations.LoopStepReceivesDecidesAndHops : Prop :=
  ∀ s : State, receiveGoesThrough s s.cfg.slots → frequencyWord s.cfg (afterHop s).sync.hopFreq < 2 ^ 24 →
    ∃ ticks fired prev,
      waitEnds s.env (s.env.afterAnswers s.cfg.slots).time s.cfg.dwell.toNat ticks fired ∧
      let h := afterHandle (!fired) (afterReceive s ticks fired prev)
      exec .loopStep s =
        .next (ended .ok (hpResultNat h)
          (if h.sync.shouldHop then afterTune (afterHop h).sync.hopFreq (afterHop h) else h))

/-- 60_exceptions.md R278, 46_receive_loop.md R257: when write number `k` of the push with which `LOOP.STEP` tunes
to the next carrier fails, the receive, the decision and the hop stand, the mirror holds the new carrier, and
`fault`, `err_addr`, `err_rw` and the answer name the write; so also when `LOOP.STEP` gets there in a later turn of
its poll. That the rest of the command is in the step that sees the ready bit is the model's choice (log 10). -/
def Obligations.FailedTuneOfLoopStepKeepsTheDecision : Prop :=
  (∀ s : State, s.RegInv → s.clear → frequencyWord s.cfg (afterHop s).sync.hopFreq < 2 ^ 24 →
    (s.cfg.rxRssiTrigger = true → s.env.answerAt (s.cfg.slots + 1) &&& s.cfg.rssiDone ≠ 0) →
    s.env.succeeds (s.cfg.slots + sampleSteps s.cfg.rxRssiTrigger + s.cfg.slots) →
      ∃ ticks fired prev,
        waitEnds s.env (s.env.afterAnswers s.cfg.slots).time s.cfg.dwell.toNat ticks fired ∧
        let h := afterHandle (!fired) (afterReceive s ticks fired prev)
        (s.env.succeeds (s.cfg.slots + sampleSteps s.cfg.rxRssiTrigger + s.cfg.slots +
            (if fired then s.cfg.frameLen else 0)) →
          ∀ k < s.cfg.slots, h.sync.shouldHop = true → failsAt h.env k →
            exec .loopStep s =
              .next (failedPush (modeFirst s.cfg) k
                (withMirror (tunedMirror (afterHop h) (afterHop h).sync.hopFreq) (afterHop h))))) ∧
    ∀ (s : State) (fired : Bool), s.RegInv → s.clear → s.phase = .pollRssi (.loopStep fired) →
      frequencyWord s.cfg (afterHop s).sync.hopFreq < 2 ^ 24 → s.env.answerAt 0 &&& s.cfg.rssiDone ≠ 0 →
      s.env.succeeds (2 + s.cfg.slots + (if fired then s.cfg.frameLen else 0)) →
        let h := afterHandle (!fired) (afterPolledReceive s fired)
        ∀ k < s.cfg.slots, h.sync.shouldHop = true → failsAt h.env k →
          step s =
            .next (failedPush (modeFirst s.cfg) k
              (withMirror (tunedMirror (afterHop h) (afterHop h).sync.hopFreq) (afterHop h)))

/-- 46_receive_loop.md R255: when every transaction succeeds, `LOOP.STEP` and the elementary commands in the same
order leave the same state and the same trace, and so do `LOOP.INIT` and `NEXT_HOP`, `SET_FREQ.H`; only the last
answer differs. -/
def Obligations.CompositeCommandsEqualTheElementaryOnes : Prop :=
  ∀ s : State, receiveGoesThrough s s.cfg.slots → frequencyWord s.cfg (afterHop s).sync.hopFreq < 2 ^ 24 →
    (∃ t u, exec .loopInit s = .next t ∧ runAll [.nextHop, .setFreqH] s = .next u ∧
      { t with resp := none } = { u with resp := none }) ∧
    (∃ t u, exec .loopStep s = .next t ∧
      runAll (if t.sync.shouldHop then [.receiveD, .hpktR, .nextHop, .setFreqH] else [.receiveD, .hpktR]) s =
        .next u ∧
      { t with resp := none } = { u with resp := none })
end

