-- ==== Sys2Proof/Laws/Encoding.lean ====
section
/-! SUPPORT. The parts of a command word (30_encoding.md R92): an opcode above, an argument below, each read back from
the word it was put into. -/

namespace Sys2Proof

theorem getLsbD_wordOf (op : Byte) (arg : Word) (i : Nat) :
    (wordOf op arg).getLsbD i = if i < 32 then arg.getLsbD i else op.getLsbD (i - 32) :=
  BitVec.getLsbD_append

@[simp] theorem opOf_wordOf (op : Byte) (arg : Word) : opOf (wordOf op arg) = op := by
  apply BitVec.eq_of_getLsbD_eq
  intro i hi
  simp [opOf, getLsbD_wordOf, hi]

@[simp] theorem argOf_wordOf (op : Byte) (arg : Word) : argOf (wordOf op arg) = arg := by
  apply BitVec.eq_of_getLsbD_eq
  intro i hi
  simp [argOf, getLsbD_wordOf, hi]

/-- A word is its opcode and its argument (30_encoding.md R92). -/
theorem wordOf_opOf_argOf (w : Command) : wordOf (opOf w) (argOf w) = w := by
  apply BitVec.eq_of_getLsbD_eq
  intro i hi
  rw [getLsbD_wordOf]
  split
  · simp [argOf, *]
  · simp only [opOf, BitVec.getLsbD_extractLsb', show 32 + (i - 32) = i by omega, show i - 32 < 8 by omega,
      decide_true, Bool.true_and]

theorem wordOf_and (op : Byte) (arg : Word) (m : Byte) (n : Word) :
    wordOf op arg &&& wordOf m n = wordOf (op &&& m) (arg &&& n) := by
  apply BitVec.eq_of_getLsbD_eq
  intro i hi
  simp only [BitVec.getLsbD_and, getLsbD_wordOf]; split <;> rfl

/-- A field of at most `k` bits leaves no bit of `arg` at `k` or above. -/
theorem field_ushiftRight (n : Nat) (k : Nat) (hk : n ≤ k) (b : BitVec n) : (b.setWidth 32) >>> k = (0 : Word) := by
  apply BitVec.eq_of_getLsbD_eq
  intro i hi
  simp; intro; exact BitVec.getLsbD_of_ge _ _ (by omega)

/-- A field is read back from the argument it was put into. -/
theorem field_extract (n : Nat) (hn : n ≤ 32) (b : BitVec n) : (b.setWidth 32).extractLsb' 0 n = b := by
  apply BitVec.eq_of_getLsbD_eq
  intro i hi
  simp [hi]; omega

theorem ushiftRight_all (w : Word) : w >>> 32 = 0#32 := BitVec.ushiftRight_eq_zero (le_refl 32)

end Sys2Proof
end

