-- ==== Sys2Proof/Laws/State.lean ====
section
/-! SUPPORT. One lemma per field per update of the state, each true by rfl, so that no later proof unfolds an
update. -/

namespace Sys2Proof.Machine

/-! ### respond -/

@[simp] theorem respond_cfg (st : Status) (v : Word) (s : State) :
    (respond st v s).cfg = s.cfg := rfl
@[simp] theorem respond_phase (st : Status) (v : Word) (s : State) :
    (respond st v s).phase = .idle := rfl
@[simp] theorem respond_chk (st : Status) (v : Word) (s : State) :
    (respond st v s).chk = s.chk := rfl
@[simp] theorem respond_buf (st : Status) (v : Word) (s : State) :
    (respond st v s).buf = s.buf := rfl
@[simp] theorem respond_rd (st : Status) (v : Word) (s : State) :
    (respond st v s).rd = s.rd := rfl
@[simp] theorem respond_sync (st : Status) (v : Word) (s : State) :
    (respond st v s).sync = s.sync := rfl
@[simp] theorem respond_drv (st : Status) (v : Word) (s : State) :
    (respond st v s).drv = s.drv := rfl
@[simp] theorem respond_flt (st : Status) (v : Word) (s : State) :
    (respond st v s).flt = s.flt := rfl
@[simp] theorem respond_resp (st : Status) (v : Word) (s : State) :
    (respond st v s).resp = some { status := st, result := v } := rfl
@[simp] theorem respond_rstIn (st : Status) (v : Word) (s : State) :
    (respond st v s).rstIn = s.rstIn := rfl
@[simp] theorem respond_host (st : Status) (v : Word) (s : State) :
    (respond st v s).host = s.host := rfl
@[simp] theorem respond_env (st : Status) (v : Word) (s : State) :
    (respond st v s).env = s.env := rfl
@[simp] theorem respond_trace (st : Status) (v : Word) (s : State) :
    (respond st v s).trace = s.trace := rfl

/-! ### raiseBusError -/

@[simp] theorem raiseBusError_cfg (a : Byte) (r : Bool) (s : State) :
    (raiseBusError a r s).cfg = s.cfg := rfl
@[simp] theorem raiseBusError_phase (a : Byte) (r : Bool) (s : State) :
    (raiseBusError a r s).phase = .idle := rfl
@[simp] theorem raiseBusError_chk (a : Byte) (r : Bool) (s : State) :
    (raiseBusError a r s).chk = s.chk := rfl
@[simp] theorem raiseBusError_buf (a : Byte) (r : Bool) (s : State) :
    (raiseBusError a r s).buf = s.buf := rfl
@[simp] theorem raiseBusError_rd (a : Byte) (r : Bool) (s : State) :
    (raiseBusError a r s).rd = s.rd := rfl
@[simp] theorem raiseBusError_sync (a : Byte) (r : Bool) (s : State) :
    (raiseBusError a r s).sync = s.sync := rfl
@[simp] theorem raiseBusError_drv (a : Byte) (r : Bool) (s : State) :
    (raiseBusError a r s).drv = s.drv := rfl
@[simp] theorem raiseBusError_flt (a : Byte) (r : Bool) (s : State) :
    (raiseBusError a r s).flt = { fault := true, errAddr := a, errRw := r } := rfl
@[simp] theorem raiseBusError_resp (a : Byte) (r : Bool) (s : State) :
    (raiseBusError a r s).resp = some { status := .errBus, result := (BitVec.ofBool r ++ a).setWidth 32 } := rfl
@[simp] theorem raiseBusError_rstIn (a : Byte) (r : Bool) (s : State) :
    (raiseBusError a r s).rstIn = s.rstIn := rfl
@[simp] theorem raiseBusError_host (a : Byte) (r : Bool) (s : State) :
    (raiseBusError a r s).host = s.host := rfl
@[simp] theorem raiseBusError_env (a : Byte) (r : Bool) (s : State) :
    (raiseBusError a r s).env = s.env := rfl
@[simp] theorem raiseBusError_trace (a : Byte) (r : Bool) (s : State) :
    (raiseBusError a r s).trace = s.trace := rfl

/-! ### enter -/

@[simp] theorem enter_cfg (p : Phase) (s : State) :
    (s.enter p).cfg = s.cfg := rfl
@[simp] theorem enter_phase (p : Phase) (s : State) :
    (s.enter p).phase = p := rfl
@[simp] theorem enter_chk (p : Phase) (s : State) :
    (s.enter p).chk = s.chk := rfl
@[simp] theorem enter_buf (p : Phase) (s : State) :
    (s.enter p).buf = s.buf := rfl
@[simp] theorem enter_rd (p : Phase) (s : State) :
    (s.enter p).rd = s.rd := rfl
@[simp] theorem enter_sync (p : Phase) (s : State) :
    (s.enter p).sync = s.sync := rfl
@[simp] theorem enter_drv (p : Phase) (s : State) :
    (s.enter p).drv = s.drv := rfl
@[simp] theorem enter_flt (p : Phase) (s : State) :
    (s.enter p).flt = s.flt := rfl
@[simp] theorem enter_resp (p : Phase) (s : State) :
    (s.enter p).resp = s.resp := rfl
@[simp] theorem enter_rstIn (p : Phase) (s : State) :
    (s.enter p).rstIn = s.rstIn := rfl
@[simp] theorem enter_host (p : Phase) (s : State) :
    (s.enter p).host = s.host := rfl
@[simp] theorem enter_env (p : Phase) (s : State) :
    (s.enter p).env = s.env := rfl
@[simp] theorem enter_trace (p : Phase) (s : State) :
    (s.enter p).trace = s.trace := rfl

/-! ### sampling -/

@[simp] theorem sampling_cfg (s : State) :
    s.sampling.cfg = s.cfg := rfl
@[simp] theorem sampling_phase (s : State) :
    s.sampling.phase = s.phase := rfl
@[simp] theorem sampling_chk (s : State) :
    s.sampling.chk = s.chk := rfl
@[simp] theorem sampling_buf (s : State) :
    s.sampling.buf = s.buf := rfl
@[simp] theorem sampling_rd (s : State) :
    s.sampling.rd = s.rd := rfl
@[simp] theorem sampling_sync (s : State) :
    s.sampling.sync = s.sync := rfl
@[simp] theorem sampling_drv (s : State) :
    s.sampling.drv = s.drv := rfl
@[simp] theorem sampling_flt (s : State) :
    s.sampling.flt = s.flt := rfl
@[simp] theorem sampling_resp (s : State) :
    s.sampling.resp = s.resp := rfl
@[simp] theorem sampling_rstIn (s : State) :
    s.sampling.rstIn = s.rstIn := rfl
@[simp] theorem sampling_host (s : State) :
    s.sampling.host = s.host := rfl
@[simp] theorem sampling_env (s : State) :
    s.sampling.env = s.env.afterLag := rfl
@[simp] theorem sampling_trace (s : State) :
    s.sampling.trace = s.trace := rfl

/-! ### passEvent -/

@[simp] theorem passEvent_cfg (ev : Event) (e : Env) (s : State) :
    (s.passEvent ev e).cfg = s.cfg := rfl
@[simp] theorem passEvent_phase (ev : Event) (e : Env) (s : State) :
    (s.passEvent ev e).phase = s.phase := rfl
@[simp] theorem passEvent_chk (ev : Event) (e : Env) (s : State) :
    (s.passEvent ev e).chk = s.chk := rfl
@[simp] theorem passEvent_buf (ev : Event) (e : Env) (s : State) :
    (s.passEvent ev e).buf = s.buf := rfl
@[simp] theorem passEvent_rd (ev : Event) (e : Env) (s : State) :
    (s.passEvent ev e).rd = s.rd := rfl
@[simp] theorem passEvent_sync (ev : Event) (e : Env) (s : State) :
    (s.passEvent ev e).sync = s.sync := rfl
@[simp] theorem passEvent_drv (ev : Event) (e : Env) (s : State) :
    (s.passEvent ev e).drv = s.drv := rfl
@[simp] theorem passEvent_flt (ev : Event) (e : Env) (s : State) :
    (s.passEvent ev e).flt = s.flt := rfl
@[simp] theorem passEvent_resp (ev : Event) (e : Env) (s : State) :
    (s.passEvent ev e).resp = s.resp := rfl
@[simp] theorem passEvent_rstIn (ev : Event) (e : Env) (s : State) :
    (s.passEvent ev e).rstIn = s.rstIn.map Nat.pred := rfl
@[simp] theorem passEvent_host (ev : Event) (e : Env) (s : State) :
    (s.passEvent ev e).host = s.host := rfl
@[simp] theorem passEvent_env (ev : Event) (e : Env) (s : State) :
    (s.passEvent ev e).env = e := rfl
@[simp] theorem passEvent_trace (ev : Event) (e : Env) (s : State) :
    (s.passEvent ev e).trace = s.trace ++ [ev] := rfl

/-! ### issue -/

@[simp] theorem issue_cfg (s : State) :
    s.issue.cfg = s.cfg := rfl
@[simp] theorem issue_phase (s : State) :
    s.issue.phase = s.phase := rfl
@[simp] theorem issue_chk (s : State) :
    s.issue.chk = s.chk := rfl
@[simp] theorem issue_buf (s : State) :
    s.issue.buf = s.buf := rfl
@[simp] theorem issue_rd (s : State) :
    s.issue.rd = s.rd := rfl
@[simp] theorem issue_sync (s : State) :
    s.issue.sync = s.sync := rfl
@[simp] theorem issue_drv (s : State) :
    s.issue.drv = s.drv := rfl
@[simp] theorem issue_flt (s : State) :
    s.issue.flt = s.flt := rfl
@[simp] theorem issue_resp (s : State) :
    s.issue.resp = s.resp := rfl
@[simp] theorem issue_rstIn (s : State) :
    s.issue.rstIn = s.rstIn.map Nat.pred := rfl
@[simp] theorem issue_host (s : State) :
    s.issue.host = s.host := rfl
@[simp] theorem issue_env (s : State) :
    s.issue.env = s.env := rfl
@[simp] theorem issue_trace (s : State) :
    s.issue.trace = s.trace := rfl

/-! ### cutInFlight -/

@[simp] theorem cutInFlight_cfg (ev : Event) (s : State) :
    (s.cutInFlight ev).cfg = s.cfg := rfl
@[simp] theorem cutInFlight_phase (ev : Event) (s : State) :
    (s.cutInFlight ev).phase = s.phase := rfl
@[simp] theorem cutInFlight_chk (ev : Event) (s : State) :
    (s.cutInFlight ev).chk = s.chk := rfl
@[simp] theorem cutInFlight_buf (ev : Event) (s : State) :
    (s.cutInFlight ev).buf = s.buf := rfl
@[simp] theorem cutInFlight_rd (ev : Event) (s : State) :
    (s.cutInFlight ev).rd = s.rd := rfl
@[simp] theorem cutInFlight_sync (ev : Event) (s : State) :
    (s.cutInFlight ev).sync = s.sync := rfl
@[simp] theorem cutInFlight_drv (ev : Event) (s : State) :
    (s.cutInFlight ev).drv = s.drv := rfl
@[simp] theorem cutInFlight_flt (ev : Event) (s : State) :
    (s.cutInFlight ev).flt = s.flt := rfl
@[simp] theorem cutInFlight_resp (ev : Event) (s : State) :
    (s.cutInFlight ev).resp = s.resp := rfl
@[simp] theorem cutInFlight_rstIn (ev : Event) (s : State) :
    (s.cutInFlight ev).rstIn = s.rstIn.map Nat.pred := rfl
@[simp] theorem cutInFlight_host (ev : Event) (s : State) :
    (s.cutInFlight ev).host = s.host := rfl
@[simp] theorem cutInFlight_env (ev : Event) (s : State) :
    (s.cutInFlight ev).env = s.env := rfl
@[simp] theorem cutInFlight_trace (ev : Event) (s : State) :
    (s.cutInFlight ev).trace = s.trace ++ [ev] := rfl

/-! ### afterRead -/

@[simp] theorem afterRead_cfg (a : Byte) (s : State) :
    (s.afterRead a).cfg = s.cfg := rfl
@[simp] theorem afterRead_phase (a : Byte) (s : State) :
    (s.afterRead a).phase = s.phase := rfl
@[simp] theorem afterRead_chk (a : Byte) (s : State) :
    (s.afterRead a).chk = s.chk := rfl
@[simp] theorem afterRead_buf (a : Byte) (s : State) :
    (s.afterRead a).buf = s.buf := rfl
@[simp] theorem afterRead_rd (a : Byte) (s : State) :
    (s.afterRead a).rd = s.rd := rfl
@[simp] theorem afterRead_sync (a : Byte) (s : State) :
    (s.afterRead a).sync = s.sync := rfl
@[simp] theorem afterRead_drv (a : Byte) (s : State) :
    (s.afterRead a).drv = s.drv := rfl
@[simp] theorem afterRead_flt (a : Byte) (s : State) :
    (s.afterRead a).flt = s.flt := rfl
@[simp] theorem afterRead_resp (a : Byte) (s : State) :
    (s.afterRead a).resp = s.resp := rfl
@[simp] theorem afterRead_rstIn (a : Byte) (s : State) :
    (s.afterRead a).rstIn = (s.rstIn.map Nat.pred).map Nat.pred := rfl
@[simp] theorem afterRead_host (a : Byte) (s : State) :
    (s.afterRead a).host = s.host := rfl
@[simp] theorem afterRead_env (a : Byte) (s : State) :
    (s.afterRead a).env = s.env.afterAnswer := rfl
@[simp] theorem afterRead_trace (a : Byte) (s : State) :
    (s.afterRead a).trace = s.trace ++ [.read a (if s.env.nextAnswer.ok then some s.env.nextAnswer.data else none)] := rfl

/-! ### afterWrite -/

@[simp] theorem afterWrite_cfg (a v : Byte) (s : State) :
    (s.afterWrite a v).cfg = s.cfg := rfl
@[simp] theorem afterWrite_phase (a v : Byte) (s : State) :
    (s.afterWrite a v).phase = s.phase := rfl
@[simp] theorem afterWrite_chk (a v : Byte) (s : State) :
    (s.afterWrite a v).chk = s.chk := rfl
@[simp] theorem afterWrite_buf (a v : Byte) (s : State) :
    (s.afterWrite a v).buf = s.buf := rfl
@[simp] theorem afterWrite_rd (a v : Byte) (s : State) :
    (s.afterWrite a v).rd = s.rd := rfl
@[simp] theorem afterWrite_sync (a v : Byte) (s : State) :
    (s.afterWrite a v).sync = s.sync := rfl
@[simp] theorem afterWrite_drv (a v : Byte) (s : State) :
    (s.afterWrite a v).drv = s.drv := rfl
@[simp] theorem afterWrite_flt (a v : Byte) (s : State) :
    (s.afterWrite a v).flt = s.flt := rfl
@[simp] theorem afterWrite_resp (a v : Byte) (s : State) :
    (s.afterWrite a v).resp = s.resp := rfl
@[simp] theorem afterWrite_rstIn (a v : Byte) (s : State) :
    (s.afterWrite a v).rstIn = (s.rstIn.map Nat.pred).map Nat.pred := rfl
@[simp] theorem afterWrite_host (a v : Byte) (s : State) :
    (s.afterWrite a v).host = s.host := rfl
@[simp] theorem afterWrite_env (a v : Byte) (s : State) :
    (s.afterWrite a v).env = s.env.afterAnswer := rfl
@[simp] theorem afterWrite_trace (a v : Byte) (s : State) :
    (s.afterWrite a v).trace = s.trace ++ [.write a v s.env.nextAnswer.ok] := rfl

/-! ### setMode -/

@[simp] theorem setMode_cfg (m : Byte) (s : State) :
    (setMode m s).cfg = s.cfg := rfl
@[simp] theorem setMode_phase (m : Byte) (s : State) :
    (setMode m s).phase = s.phase := rfl
@[simp] theorem setMode_chk (m : Byte) (s : State) :
    (setMode m s).chk = s.chk := rfl
@[simp] theorem setMode_buf (m : Byte) (s : State) :
    (setMode m s).buf = s.buf := rfl
@[simp] theorem setMode_rd (m : Byte) (s : State) :
    (setMode m s).rd = s.rd := rfl
@[simp] theorem setMode_sync (m : Byte) (s : State) :
    (setMode m s).sync = s.sync := rfl
@[simp] theorem setMode_drv (m : Byte) (s : State) :
    (setMode m s).drv = { s.drv with mir := s.drv.mir.set 0 (s.cfg.withMode (s.mirAt 0) m) } := rfl
@[simp] theorem setMode_flt (m : Byte) (s : State) :
    (setMode m s).flt = s.flt := rfl
@[simp] theorem setMode_resp (m : Byte) (s : State) :
    (setMode m s).resp = s.resp := rfl
@[simp] theorem setMode_rstIn (m : Byte) (s : State) :
    (setMode m s).rstIn = s.rstIn := rfl
@[simp] theorem setMode_host (m : Byte) (s : State) :
    (setMode m s).host = s.host := rfl
@[simp] theorem setMode_env (m : Byte) (s : State) :
    (setMode m s).env = s.env := rfl
@[simp] theorem setMode_trace (m : Byte) (s : State) :
    (setMode m s).trace = s.trace := rfl

/-! ### tuneMirror -/

@[simp] theorem tuneMirror_cfg (hz : Word) (s : State) :
    (tuneMirror hz s).cfg = s.cfg := rfl
@[simp] theorem tuneMirror_phase (hz : Word) (s : State) :
    (tuneMirror hz s).phase = s.phase := rfl
@[simp] theorem tuneMirror_chk (hz : Word) (s : State) :
    (tuneMirror hz s).chk = s.chk := rfl
@[simp] theorem tuneMirror_buf (hz : Word) (s : State) :
    (tuneMirror hz s).buf = s.buf := rfl
@[simp] theorem tuneMirror_rd (hz : Word) (s : State) :
    (tuneMirror hz s).rd = s.rd := rfl
@[simp] theorem tuneMirror_sync (hz : Word) (s : State) :
    (tuneMirror hz s).sync = s.sync := rfl
@[simp] theorem tuneMirror_flt (hz : Word) (s : State) :
    (tuneMirror hz s).flt = s.flt := rfl
@[simp] theorem tuneMirror_resp (hz : Word) (s : State) :
    (tuneMirror hz s).resp = s.resp := rfl
@[simp] theorem tuneMirror_rstIn (hz : Word) (s : State) :
    (tuneMirror hz s).rstIn = s.rstIn := rfl
@[simp] theorem tuneMirror_host (hz : Word) (s : State) :
    (tuneMirror hz s).host = s.host := rfl
@[simp] theorem tuneMirror_env (hz : Word) (s : State) :
    (tuneMirror hz s).env = s.env := rfl
@[simp] theorem tuneMirror_trace (hz : Word) (s : State) :
    (tuneMirror hz s).trace = s.trace := rfl

/-! ### setMir -/

@[simp] theorem setMir_cfg (k : Nat) (b : Byte) (s : State) :
    (s.setMir k b).cfg = s.cfg := rfl
@[simp] theorem setMir_phase (k : Nat) (b : Byte) (s : State) :
    (s.setMir k b).phase = s.phase := rfl
@[simp] theorem setMir_chk (k : Nat) (b : Byte) (s : State) :
    (s.setMir k b).chk = s.chk := rfl
@[simp] theorem setMir_buf (k : Nat) (b : Byte) (s : State) :
    (s.setMir k b).buf = s.buf := rfl
@[simp] theorem setMir_rd (k : Nat) (b : Byte) (s : State) :
    (s.setMir k b).rd = s.rd := rfl
@[simp] theorem setMir_sync (k : Nat) (b : Byte) (s : State) :
    (s.setMir k b).sync = s.sync := rfl
@[simp] theorem setMir_drv (k : Nat) (b : Byte) (s : State) :
    (s.setMir k b).drv = { s.drv with mir := s.drv.mir.set k b } := rfl
@[simp] theorem setMir_flt (k : Nat) (b : Byte) (s : State) :
    (s.setMir k b).flt = s.flt := rfl
@[simp] theorem setMir_resp (k : Nat) (b : Byte) (s : State) :
    (s.setMir k b).resp = s.resp := rfl
@[simp] theorem setMir_rstIn (k : Nat) (b : Byte) (s : State) :
    (s.setMir k b).rstIn = s.rstIn := rfl
@[simp] theorem setMir_host (k : Nat) (b : Byte) (s : State) :
    (s.setMir k b).host = s.host := rfl
@[simp] theorem setMir_env (k : Nat) (b : Byte) (s : State) :
    (s.setMir k b).env = s.env := rfl
@[simp] theorem setMir_trace (k : Nat) (b : Byte) (s : State) :
    (s.setMir k b).trace = s.trace := rfl

/-! ### setRaw -/

@[simp] theorem setRaw_cfg (i : Nat) (b : Byte) (s : State) :
    (s.setRaw i b).cfg = s.cfg := rfl
@[simp] theorem setRaw_phase (i : Nat) (b : Byte) (s : State) :
    (s.setRaw i b).phase = s.phase := rfl
@[simp] theorem setRaw_chk (i : Nat) (b : Byte) (s : State) :
    (s.setRaw i b).chk = s.chk := rfl
@[simp] theorem setRaw_buf (i : Nat) (b : Byte) (s : State) :
    (s.setRaw i b).buf = { s.buf with raw := s.buf.raw.set i b } := rfl
@[simp] theorem setRaw_rd (i : Nat) (b : Byte) (s : State) :
    (s.setRaw i b).rd = s.rd := rfl
@[simp] theorem setRaw_sync (i : Nat) (b : Byte) (s : State) :
    (s.setRaw i b).sync = s.sync := rfl
@[simp] theorem setRaw_drv (i : Nat) (b : Byte) (s : State) :
    (s.setRaw i b).drv = s.drv := rfl
@[simp] theorem setRaw_flt (i : Nat) (b : Byte) (s : State) :
    (s.setRaw i b).flt = s.flt := rfl
@[simp] theorem setRaw_resp (i : Nat) (b : Byte) (s : State) :
    (s.setRaw i b).resp = s.resp := rfl
@[simp] theorem setRaw_rstIn (i : Nat) (b : Byte) (s : State) :
    (s.setRaw i b).rstIn = s.rstIn := rfl
@[simp] theorem setRaw_host (i : Nat) (b : Byte) (s : State) :
    (s.setRaw i b).host = s.host := rfl
@[simp] theorem setRaw_env (i : Nat) (b : Byte) (s : State) :
    (s.setRaw i b).env = s.env := rfl
@[simp] theorem setRaw_trace (i : Nat) (b : Byte) (s : State) :
    (s.setRaw i b).trace = s.trace := rfl

/-! ### setRssi -/

@[simp] theorem setRssi_cfg (b : Byte) (s : State) :
    (s.setRssi b).cfg = s.cfg := rfl
@[simp] theorem setRssi_phase (b : Byte) (s : State) :
    (s.setRssi b).phase = s.phase := rfl
@[simp] theorem setRssi_chk (b : Byte) (s : State) :
    (s.setRssi b).chk = s.chk := rfl
@[simp] theorem setRssi_buf (b : Byte) (s : State) :
    (s.setRssi b).buf = s.buf := rfl
@[simp] theorem setRssi_rd (b : Byte) (s : State) :
    (s.setRssi b).rd = s.rd := rfl
@[simp] theorem setRssi_sync (b : Byte) (s : State) :
    (s.setRssi b).sync = s.sync := rfl
@[simp] theorem setRssi_drv (b : Byte) (s : State) :
    (s.setRssi b).drv = { s.drv with rssiRaw := b } := rfl
@[simp] theorem setRssi_flt (b : Byte) (s : State) :
    (s.setRssi b).flt = s.flt := rfl
@[simp] theorem setRssi_resp (b : Byte) (s : State) :
    (s.setRssi b).resp = s.resp := rfl
@[simp] theorem setRssi_rstIn (b : Byte) (s : State) :
    (s.setRssi b).rstIn = s.rstIn := rfl
@[simp] theorem setRssi_host (b : Byte) (s : State) :
    (s.setRssi b).host = s.host := rfl
@[simp] theorem setRssi_env (b : Byte) (s : State) :
    (s.setRssi b).env = s.env := rfl
@[simp] theorem setRssi_trace (b : Byte) (s : State) :
    (s.setRssi b).trace = s.trace := rfl

/-! ### setTimedOut -/

@[simp] theorem setTimedOut_cfg (b : Bool) (s : State) :
    (s.setTimedOut b).cfg = s.cfg := rfl
@[simp] theorem setTimedOut_phase (b : Bool) (s : State) :
    (s.setTimedOut b).phase = s.phase := rfl
@[simp] theorem setTimedOut_chk (b : Bool) (s : State) :
    (s.setTimedOut b).chk = s.chk := rfl
@[simp] theorem setTimedOut_buf (b : Bool) (s : State) :
    (s.setTimedOut b).buf = s.buf := rfl
@[simp] theorem setTimedOut_rd (b : Bool) (s : State) :
    (s.setTimedOut b).rd = s.rd := rfl
@[simp] theorem setTimedOut_sync (b : Bool) (s : State) :
    (s.setTimedOut b).sync = s.sync := rfl
@[simp] theorem setTimedOut_drv (b : Bool) (s : State) :
    (s.setTimedOut b).drv = { s.drv with rxTimedOut := b } := rfl
@[simp] theorem setTimedOut_flt (b : Bool) (s : State) :
    (s.setTimedOut b).flt = s.flt := rfl
@[simp] theorem setTimedOut_resp (b : Bool) (s : State) :
    (s.setTimedOut b).resp = s.resp := rfl
@[simp] theorem setTimedOut_rstIn (b : Bool) (s : State) :
    (s.setTimedOut b).rstIn = s.rstIn := rfl
@[simp] theorem setTimedOut_host (b : Bool) (s : State) :
    (s.setTimedOut b).host = s.host := rfl
@[simp] theorem setTimedOut_env (b : Bool) (s : State) :
    (s.setTimedOut b).env = s.env := rfl
@[simp] theorem setTimedOut_trace (b : Bool) (s : State) :
    (s.setTimedOut b).trace = s.trace := rfl

/-! ### accept -/

@[simp] theorem accept_cfg (h : List HostInput) (s : State) :
    (s.accept h).cfg = s.cfg := rfl
@[simp] theorem accept_phase (h : List HostInput) (s : State) :
    (s.accept h).phase = .run := rfl
@[simp] theorem accept_chk (h : List HostInput) (s : State) :
    (s.accept h).chk = s.chk := rfl
@[simp] theorem accept_buf (h : List HostInput) (s : State) :
    (s.accept h).buf = s.buf := rfl
@[simp] theorem accept_rd (h : List HostInput) (s : State) :
    (s.accept h).rd = s.rd := rfl
@[simp] theorem accept_sync (h : List HostInput) (s : State) :
    (s.accept h).sync = s.sync := rfl
@[simp] theorem accept_drv (h : List HostInput) (s : State) :
    (s.accept h).drv = s.drv := rfl
@[simp] theorem accept_flt (h : List HostInput) (s : State) :
    (s.accept h).flt = s.flt := rfl
@[simp] theorem accept_resp (h : List HostInput) (s : State) :
    (s.accept h).resp = none := rfl
@[simp] theorem accept_rstIn (h : List HostInput) (s : State) :
    (s.accept h).rstIn = s.rstIn := rfl
@[simp] theorem accept_host (h : List HostInput) (s : State) :
    (s.accept h).host = h := rfl
@[simp] theorem accept_env (h : List HostInput) (s : State) :
    (s.accept h).env = s.env := rfl
@[simp] theorem accept_trace (h : List HostInput) (s : State) :
    (s.accept h).trace = s.trace := rfl

/-! ### unpresent -/

@[simp] theorem unpresent_cfg (s : State) :
    s.unpresent.cfg = s.cfg := rfl
@[simp] theorem unpresent_phase (s : State) :
    s.unpresent.phase = s.phase := rfl
@[simp] theorem unpresent_chk (s : State) :
    s.unpresent.chk = s.chk := rfl
@[simp] theorem unpresent_buf (s : State) :
    s.unpresent.buf = s.buf := rfl
@[simp] theorem unpresent_rd (s : State) :
    s.unpresent.rd = s.rd := rfl
@[simp] theorem unpresent_sync (s : State) :
    s.unpresent.sync = s.sync := rfl
@[simp] theorem unpresent_drv (s : State) :
    s.unpresent.drv = s.drv := rfl
@[simp] theorem unpresent_flt (s : State) :
    s.unpresent.flt = s.flt := rfl
@[simp] theorem unpresent_resp (s : State) :
    s.unpresent.resp = none := rfl
@[simp] theorem unpresent_rstIn (s : State) :
    s.unpresent.rstIn = s.rstIn := rfl
@[simp] theorem unpresent_host (s : State) :
    s.unpresent.host = s.host := rfl
@[simp] theorem unpresent_env (s : State) :
    s.unpresent.env = s.env := rfl
@[simp] theorem unpresent_trace (s : State) :
    s.unpresent.trace = s.trace := rfl

/-! ### normalise -/

@[simp] theorem normalise_cfg (s : State) :
    (normalise s).cfg = s.cfg := rfl
@[simp] theorem normalise_phase (s : State) :
    (normalise s).phase = s.phase := rfl
@[simp] theorem normalise_chk (s : State) :
    (normalise s).chk = s.chk := rfl
@[simp] theorem normalise_buf (s : State) :
    (normalise s).buf = { s.buf with dec := s.buf.raw.map bitrev8 } := rfl
@[simp] theorem normalise_rd (s : State) :
    (normalise s).rd = s.rd := rfl
@[simp] theorem normalise_sync (s : State) :
    (normalise s).sync = s.sync := rfl
@[simp] theorem normalise_drv (s : State) :
    (normalise s).drv = s.drv := rfl
@[simp] theorem normalise_flt (s : State) :
    (normalise s).flt = s.flt := rfl
@[simp] theorem normalise_resp (s : State) :
    (normalise s).resp = s.resp := rfl
@[simp] theorem normalise_rstIn (s : State) :
    (normalise s).rstIn = s.rstIn := rfl
@[simp] theorem normalise_host (s : State) :
    (normalise s).host = s.host := rfl
@[simp] theorem normalise_env (s : State) :
    (normalise s).env = s.env := rfl
@[simp] theorem normalise_trace (s : State) :
    (normalise s).trace = s.trace := rfl

/-! ### takeHop -/

@[simp] theorem takeHop_cfg (t : Word) (s : State) :
    (takeHop t s).cfg = s.cfg := rfl
@[simp] theorem takeHop_phase (t : Word) (s : State) :
    (takeHop t s).phase = s.phase := rfl
@[simp] theorem takeHop_chk (t : Word) (s : State) :
    (takeHop t s).chk = s.chk := rfl
@[simp] theorem takeHop_buf (t : Word) (s : State) :
    (takeHop t s).buf = s.buf := rfl
@[simp] theorem takeHop_rd (t : Word) (s : State) :
    (takeHop t s).rd = s.rd := rfl
@[simp] theorem takeHop_drv (t : Word) (s : State) :
    (takeHop t s).drv = s.drv := rfl
@[simp] theorem takeHop_flt (t : Word) (s : State) :
    (takeHop t s).flt = s.flt := rfl
@[simp] theorem takeHop_resp (t : Word) (s : State) :
    (takeHop t s).resp = s.resp := rfl
@[simp] theorem takeHop_rstIn (t : Word) (s : State) :
    (takeHop t s).rstIn = s.rstIn := rfl
@[simp] theorem takeHop_host (t : Word) (s : State) :
    (takeHop t s).host = s.host := rfl
@[simp] theorem takeHop_env (t : Word) (s : State) :
    (takeHop t s).env = s.env := rfl
@[simp] theorem takeHop_trace (t : Word) (s : State) :
    (takeHop t s).trace = s.trace := rfl

/-! ### nextHop -/

@[simp] theorem nextHop_cfg (s : State) :
    (nextHop s).cfg = s.cfg := rfl
@[simp] theorem nextHop_phase (s : State) :
    (nextHop s).phase = s.phase := rfl
@[simp] theorem nextHop_chk (s : State) :
    (nextHop s).chk = s.chk := rfl
@[simp] theorem nextHop_buf (s : State) :
    (nextHop s).buf = s.buf := rfl
@[simp] theorem nextHop_rd (s : State) :
    (nextHop s).rd = s.rd := rfl
@[simp] theorem nextHop_drv (s : State) :
    (nextHop s).drv = s.drv := rfl
@[simp] theorem nextHop_flt (s : State) :
    (nextHop s).flt = s.flt := rfl
@[simp] theorem nextHop_resp (s : State) :
    (nextHop s).resp = s.resp := rfl
@[simp] theorem nextHop_rstIn (s : State) :
    (nextHop s).rstIn = s.rstIn := rfl
@[simp] theorem nextHop_host (s : State) :
    (nextHop s).host = s.host := rfl
@[simp] theorem nextHop_env (s : State) :
    (nextHop s).env = s.env.afterLag := rfl
@[simp] theorem nextHop_trace (s : State) :
    (nextHop s).trace = s.trace := rfl

/-! ### verifyDec -/

@[simp] theorem verifyDec_cfg (s : State) :
    (verifyDec s).cfg = s.cfg := rfl
@[simp] theorem verifyDec_phase (s : State) :
    (verifyDec s).phase = s.phase := rfl
@[simp] theorem verifyDec_chk (s : State) :
    (verifyDec s).chk = ⟨checksum s.cfg s.cfg.crcInit s.buf.dec,
      residueOk s.cfg (checksum s.cfg s.cfg.crcInit s.buf.dec)⟩ := rfl
@[simp] theorem verifyDec_buf (s : State) :
    (verifyDec s).buf = s.buf := rfl
@[simp] theorem verifyDec_rd (s : State) :
    (verifyDec s).rd = s.rd := rfl
@[simp] theorem verifyDec_sync (s : State) :
    (verifyDec s).sync = s.sync := rfl
@[simp] theorem verifyDec_drv (s : State) :
    (verifyDec s).drv = s.drv := rfl
@[simp] theorem verifyDec_flt (s : State) :
    (verifyDec s).flt = s.flt := rfl
@[simp] theorem verifyDec_resp (s : State) :
    (verifyDec s).resp = s.resp := rfl
@[simp] theorem verifyDec_rstIn (s : State) :
    (verifyDec s).rstIn = s.rstIn := rfl
@[simp] theorem verifyDec_host (s : State) :
    (verifyDec s).host = s.host := rfl
@[simp] theorem verifyDec_env (s : State) :
    (verifyDec s).env = s.env := rfl
@[simp] theorem verifyDec_trace (s : State) :
    (verifyDec s).trace = s.trace := rfl

/-! ### The carrier and the hop -/

/-- The mirror after `set_frequency` has changed it (44_transceiver.md R217). -/
@[simp] theorem tuneMirror_drv (hz : Word) (s : State) :
    (tuneMirror hz s).drv =
      { s.drv with
        mir := (((s.drv.mir.set 0 (s.cfg.withMode (s.mirAt 0) s.cfg.modeStandby)).set 1
          ((BitVec.ofNat 24 (s.cfg.freqWord hz)).extractLsb' 16 8)).set 2
          ((BitVec.ofNat 24 (s.cfg.freqWord hz)).extractLsb' 8 8)).set 3
          ((BitVec.ofNat 24 (s.cfg.freqWord hz)).extractLsb' 0 8) } := rfl

/-- The sync group after a hop (43_channel_plan.md R193). -/
@[simp] theorem takeHop_sync (t : Word) (s : State) :
    (takeHop t s).sync =
      { s.sync with
        hopChan := BitVec.ofNat 8 s.nextChan
        hopFreq := s.nextFreq
        hopIndex := BitVec.ofNat 8 ((s.sync.hopIndex.toNat + 1) % s.cfg.channels)
        lastHop := t } := rfl

/-- The sync group after a hop stamped by its own sample of `now` (43_channel_plan.md R193). -/
@[simp] theorem nextHop_sync (s : State) :
    (nextHop s).sync =
      { s.sync with
        hopChan := BitVec.ofNat 8 s.nextChan
        hopFreq := s.nextFreq
        hopIndex := BitVec.ofNat 8 ((s.sync.hopIndex.toNat + 1) % s.cfg.channels)
        lastHop := s.env.afterLag.now } := rfl

/-! ### core reset -/

@[simp] theorem coreReset_cfg (s : State) : (coreReset s).cfg = s.cfg := rfl
@[simp] theorem coreReset_host (s : State) : (coreReset s).host = s.host := rfl
@[simp] theorem coreReset_env (s : State) : (coreReset s).env = s.env := rfl
@[simp] theorem coreReset_trace (s : State) : (coreReset s).trace = s.trace := rfl
@[simp] theorem coreReset_phase (s : State) : (coreReset s).phase = .idle := rfl
@[simp] theorem coreReset_rstIn (s : State) : (coreReset s).rstIn = none := rfl
@[simp] theorem coreReset_resp (s : State) : (coreReset s).resp = none := rfl
@[simp] theorem coreReset_sync (s : State) : (coreReset s).sync = Sync.atReset := rfl
@[simp] theorem coreReset_flt (s : State) :
    (coreReset s).flt = { fault := false, errAddr := 0, errRw := false } := rfl

end Sys2Proof.Machine
end

