-- ==== Sys2Proof/Laws/Ops.lean ====
section
/-! SUPPORT. What each shared operation of Machine/Ops.lean can do, said once: how a command's pieces compose, what
the inputs do, and the outcomes of the five sequencer events. -/

namespace Sys2Proof.Machine

/-! ### Program order -/

@[simp] theorem ok_andThen {α β : Type} (a : α) (s : State) (f : α → State → Res β) :
    (Res.ok a s).andThen f = f a s := rfl

@[simp] theorem stop_andThen {α β : Type} (s : State) (f : α → State → Res β) :
    (Res.stop s : Res α).andThen f = .stop s := rfl

theorem andThen_assoc {α β γ : Type} (r : Res α) (f : α → State → Res β) (g : β → State → Res γ) :
    (r.andThen f).andThen g = r.andThen fun a s => (f a s).andThen g := by
  cases r <;> rfl

theorem answerUnlessCut_of_ne {s : State} (h : s.rstIn ≠ some 0) (t : State) : answerUnlessCut s t = t := by
  simp [answerUnlessCut, h]

theorem answerUnlessCut_of_none {s : State} (h : s.rstIn = none) (t : State) : answerUnlessCut s t = t :=
  answerUnlessCut_of_ne (by simp [h]) t

/-- The two things answering can leave. -/
theorem answerUnlessCut_cases {P : State → Prop} {s t : State} (hcut : s.rstIn = some 0 → P s)
    (hans : s.rstIn ≠ some 0 → P t) : P (answerUnlessCut s t) := by
  unfold answerUnlessCut
  split
  · exact hcut ‹_›
  · exact hans ‹_›

theorem finish_ok {s : State} (h : s.rstIn = none) (v : Word) : (Res.ok v s).finish = respond .ok v s :=
  answerUnlessCut_of_none h _

@[simp] theorem finish_stop (s : State) : (Res.stop s : Res Word).finish = s := rfl

/-- What holds however a piece ends: `Q` of its value and state when it goes on, `E` of the state it stops in. -/
def Res.Sat {α : Type} (r : Res α) (Q : α → State → Prop) (E : State → Prop) : Prop :=
  match r with
  | .ok a s => Q a s
  | .stop s => E s

@[simp] theorem sat_ok {α : Type} (a : α) (s : State) (Q : α → State → Prop) (E : State → Prop) :
    (Res.ok a s).Sat Q E ↔ Q a s := Iff.rfl

@[simp] theorem sat_stop {α : Type} (s : State) (Q : α → State → Prop) (E : State → Prop) :
    (Res.stop s : Res α).Sat Q E ↔ E s := Iff.rfl

theorem Res.Sat.andThen {α β : Type} {r : Res α} {f : α → State → Res β} {Q : α → State → Prop}
    {Q' : β → State → Prop} {E : State → Prop} (hr : r.Sat Q E) (hf : ∀ a s, Q a s → (f a s).Sat Q' E) :
    (r.andThen f).Sat Q' E := by
  cases r with
  | ok a s => exact hf a s hr
  | stop s => exact hr

theorem Res.Sat.mono {α : Type} {r : Res α} {Q Q' : α → State → Prop} {E E' : State → Prop} (h : r.Sat Q E)
    (hQ : ∀ a s, Q a s → Q' a s) (hE : ∀ s, E s → E' s) : r.Sat Q' E' := by
  cases r with
  | ok a s => exact hQ a s h
  | stop s => exact hE s h

/-- A finished command: it answered `OK`, it was cut where it would have answered, or it stopped. -/
theorem Res.Sat.finish {r : Res Word} {Q : Word → State → Prop} {E : State → Prop} (h : r.Sat Q E)
    (hcut : ∀ v s, Q v s → s.rstIn = some 0 → E s)
    (hQ : ∀ v s, Q v s → s.rstIn ≠ some 0 → E (respond .ok v s)) : E r.finish := by
  cases r with
  | ok v s => exact answerUnlessCut_cases (hcut v s h) (hQ v s h)
  | stop s => exact h

/-! ### Judging -/

theorem judge_of_fault {s : State} (h : s.flt.fault = true) (b : Bool) (run : State) :
    judge s b run = refuse .errFault s := by simp [judge, h]

theorem judge_of_clear {s : State} (h : s.flt.fault = false) (run : State) : judge s true run = run := by
  simp [judge, h]

theorem judge_of_badArg {s : State} (h : s.flt.fault = false) (run : State) :
    judge s false run = refuse .errArg s := by simp [judge, h]

/-- The three things judging can lead to. -/
theorem judge_cases {P : State → Prop} {s run : State} {b : Bool} (hfault : P (refuse .errFault s))
    (harg : P (refuse .errArg s)) (hrun : s.flt.fault = false → b = true → P run) : P (judge s b run) := by
  unfold judge
  split
  · exact hfault
  · split
    · exact hrun (by simpa using ‹¬s.flt.fault = true›) ‹_›
    · exact harg

/-! ### The inputs -/

theorem time_le_afterAnswer (e : Env) : e.time ≤ e.afterAnswer.time := by
  unfold Env.afterAnswer
  split <;> exact Nat.le_add_right _ _

theorem time_le_afterLag (e : Env) : e.time ≤ e.afterLag.time := by
  unfold Env.afterLag
  split <;> exact Nat.le_add_right _ _

@[simp] theorem pass_time (e : Env) (n : Nat) : (e.pass n).time = e.time + n := rfl
@[simp] theorem pass_nextAnswer (e : Env) (n : Nat) : (e.pass n).nextAnswer = e.nextAnswer := rfl

theorem pass_afterAnswer (e : Env) (n : Nat) : (e.pass n).afterAnswer = e.afterAnswer.pass n := by
  unfold Env.afterAnswer Env.pass
  cases e with
  | mk t bs bd ls ld is => cases bs <;> simp [Nat.add_right_comm]

@[simp] theorem answers_length (n : Nat) (e : Env) : (e.answers n).length = n := by
  induction n generalizing e with
  | zero => rfl
  | succ n ih => simp [Env.answers, ih]

@[simp] theorem pass_answers (e : Env) (n k : Nat) : (e.pass n).answers k = e.answers k := by
  induction k generalizing e with
  | zero => rfl
  | succ k ih => simp [Env.answers, pass_afterAnswer, ih]

theorem answers_add (m n : Nat) (e : Env) :
    e.answers (m + n) = e.answers m ++ (e.afterAnswers m).answers n := by
  induction m generalizing e with
  | zero => simp [Env.answers, Env.afterAnswers]
  | succ m ih => rw [Nat.succ_add]; simp [Env.answers, Env.afterAnswers, ih]

theorem afterAnswers_add (m n : Nat) (e : Env) :
    e.afterAnswers (m + n) = (e.afterAnswers m).afterAnswers n := by
  induction m generalizing e with
  | zero => simp [Env.afterAnswers]
  | succ m ih => rw [Nat.succ_add]; simp [Env.afterAnswers, ih]

theorem succeeds_add {m n : Nat} {e : Env} :
    e.succeeds (m + n) ↔ e.succeeds m ∧ (e.afterAnswers m).succeeds n := by
  simp only [Env.succeeds, answers_add, List.mem_append, or_imp, forall_and]

theorem succeeds_succ {n : Nat} {e : Env} :
    e.succeeds (n + 1) ↔ e.nextAnswer.ok = true ∧ e.afterAnswer.succeeds n := by
  simp [Env.succeeds, Env.answers]

theorem succeeds_one {e : Env} : e.succeeds 1 ↔ e.nextAnswer.ok = true := by
  simp [Env.succeeds, Env.answers]

@[simp] theorem pass_succeeds {e : Env} {n k : Nat} : (e.pass n).succeeds k ↔ e.succeeds k := by
  simp [Env.succeeds]

theorem succeeds_of_le {m n : Nat} {e : Env} (h : e.succeeds n) (hmn : m ≤ n) : e.succeeds m := by
  obtain ⟨k, rfl⟩ := Nat.exists_eq_add_of_le hmn
  exact (succeeds_add.mp h).1

/-! ### The wait (44_transceiver.md R222) -/

/-- The wait only ends by the timeout or by an edge, and never lasts longer than the timeout. -/
theorem waitTicks_bounds (env : Env) (left e t : Nat) (prev : Bool) :
    (waitTicks env left e t prev).ticks ≤ e + left ∧
      ((waitTicks env left e t prev).fired = true → e < (waitTicks env left e t prev).ticks) ∧
      ((waitTicks env left e t prev).fired = false → (waitTicks env left e t prev).ticks = e + left) := by
  induction left generalizing e t prev with
  | zero => simp [waitTicks]
  | succ left ih =>
    unfold waitTicks
    split
    · simp
    · obtain ⟨h1, h2, h3⟩ := ih (e + 1) (t + 1) (env.irqLevel (t + 1))
      exact ⟨by omega, fun h => by have := h2 h; omega, fun h => by have := h3 h; omega⟩

/-! ### Sequencer events -/

theorem unlessReset_sat {α : Type} {s : State} {r : Res α} {Q : α → State → Prop} {E : State → Prop}
    (hcut : s.rstIn = some 0 → E s) (hr : s.rstIn ≠ some 0 → r.Sat Q E) : (unlessReset s r).Sat Q E := by
  unfold unlessReset
  split
  · exact hcut ‹_›
  · exact hr ‹_›

theorem unlessReset_of_none {α : Type} {s : State} (h : s.rstIn = none) (r : Res α) : unlessReset s r = r := by
  simp [unlessReset, h]

/-- Everything a bus transaction can do: cut before it is issued, cut in flight, answered with success, answered with
failure as `rst_n` falls, or answered with a failure that is raised. -/
theorem transact_sat {α : Type} {a : Byte} {isRead : Bool} {ev : Event} {v : α} {t s : State} {Q : α → State → Prop}
    {E : State → Prop} (hcut : s.rstIn = some 0 → E s) (hflight : s.rstIn = some 1 → E (s.cutInFlight ev))
    (hok : s.env.nextAnswer.ok = true → Q v t) (hlate : t.rstIn = some 0 → E t)
    (hfail : t.rstIn ≠ some 0 → E (raiseBusError a isRead t)) : (transact a isRead ev v t s).Sat Q E := by
  refine unlessReset_sat hcut fun _ => ?_
  split
  · exact hflight ‹_›
  · split
    · exact hok ‹_›
    · exact answerUnlessCut_cases hlate hfail

/-- Everything a bus read can do. -/
theorem busRead_sat {a : Byte} {s : State} {Q : Byte → State → Prop} {E : State → Prop}
    (hcut : s.rstIn = some 0 → E s) (hflight : s.rstIn = some 1 → E (s.cutInFlight (.readCut a)))
    (hok : s.env.nextAnswer.ok = true → Q s.env.nextAnswer.data (s.afterRead a))
    (hlate : (s.afterRead a).rstIn = some 0 → E (s.afterRead a))
    (hfail : (s.afterRead a).rstIn ≠ some 0 → E (raiseBusError a true (s.afterRead a))) :
    (busRead a s).Sat Q E :=
  transact_sat hcut hflight hok hlate hfail

/-- Everything a bus write can do. -/
theorem busWrite_sat {a v : Byte} {s : State} {Q : Unit → State → Prop} {E : State → Prop}
    (hcut : s.rstIn = some 0 → E s) (hflight : s.rstIn = some 1 → E (s.cutInFlight (.writeCut a v)))
    (hok : s.env.nextAnswer.ok = true → Q () (s.afterWrite a v))
    (hlate : (s.afterWrite a v).rstIn = some 0 → E (s.afterWrite a v))
    (hfail : (s.afterWrite a v).rstIn ≠ some 0 → E (raiseBusError a false (s.afterWrite a v))) :
    (busWrite a v s).Sat Q E :=
  transact_sat hcut hflight hok hlate hfail

/-- With `rst_n` high a transaction is answered. -/
theorem transact_of_none {α : Type} {a : Byte} {isRead : Bool} {ev : Event} {v : α} {t s : State} (hs : s.rstIn = none)
    (ht : t.rstIn = none) :
    transact a isRead ev v t s = if s.env.nextAnswer.ok then .ok v t else .stop (raiseBusError a isRead t) := by
  simp [transact, unlessReset_of_none hs, answerUnlessCut_of_none ht, hs]

theorem busRead_ok {a : Byte} {s : State} (hr : s.rstIn = none) (h : s.env.nextAnswer.ok = true) :
    busRead a s = .ok s.env.nextAnswer.data (s.afterRead a) := by
  simp [busRead, transact_of_none hr (show (s.afterRead a).rstIn = none by simp [hr]), h]

theorem busWrite_ok {a v : Byte} {s : State} (hr : s.rstIn = none) (h : s.env.nextAnswer.ok = true) :
    busWrite a v s = .ok () (s.afterWrite a v) := by
  simp [busWrite, transact_of_none hr (show (s.afterWrite a v).rstIn = none by simp [hr]), h]

theorem busRead_fail {a : Byte} {s : State} (hr : s.rstIn = none) (h : s.env.nextAnswer.ok = false) :
    busRead a s = .stop (raiseBusError a true (s.afterRead a)) := by
  simp [busRead, transact_of_none hr (show (s.afterRead a).rstIn = none by simp [hr]), h]

theorem busWrite_fail {a v : Byte} {s : State} (hr : s.rstIn = none) (h : s.env.nextAnswer.ok = false) :
    busWrite a v s = .stop (raiseBusError a false (s.afterWrite a v)) := by
  simp [busWrite, transact_of_none hr (show (s.afterWrite a v).rstIn = none by simp [hr]), h]

/-- With `rst_n` high an answered read moves the inputs on and writes its event, nothing else. -/
theorem afterRead_of_none {s : State} (hr : s.rstIn = none) (a : Byte) :
    s.afterRead a =
      { s with
        env := s.env.afterAnswer
        trace := s.trace ++ [.read a (if s.env.nextAnswer.ok then some s.env.nextAnswer.data else none)] } := by
  simp [State.afterRead, State.issue, State.passEvent, hr]

/-- With `rst_n` high an answered write moves the inputs on and writes its event, nothing else. -/
theorem afterWrite_of_none {s : State} (hr : s.rstIn = none) (a v : Byte) :
    s.afterWrite a v =
      { s with
        env := s.env.afterAnswer
        trace := s.trace ++ [.write a v s.env.nextAnswer.ok] } := by
  simp [State.afterWrite, State.issue, State.passEvent, hr]

/-! ### The byte arrays: read after write -/

theorem mirAt_setMir_self {s : State} {k : Nat} (h : k < s.drv.mir.length) (b : Byte) :
    (s.setMir k b).mirAt k = b := by
  simp [State.mirAt, h]

theorem mirAt_setMir_of_ne {s : State} {k j : Nat} (h : j ≠ k) (b : Byte) : (s.setMir k b).mirAt j = s.mirAt j := by
  simp [State.mirAt, List.getD_eq_getElem?_getD, List.getElem?_set_ne (Ne.symm h)]

theorem rawAt_setRaw_self {s : State} {i : Nat} (h : i < s.buf.raw.length) (b : Byte) :
    (s.setRaw i b).rawAt i = b := by
  simp [State.rawAt, h]

theorem rawAt_setRaw_of_ne {s : State} {i j : Nat} (h : j ≠ i) (b : Byte) : (s.setRaw i b).rawAt j = s.rawAt j := by
  simp [State.rawAt, List.getD_eq_getElem?_getD, List.getElem?_set_ne (Ne.symm h)]

end Sys2Proof.Machine
end

