-- ==== Sys2Proof/Laws/Handler.lean ====
section
/-! SUPPORT. What the handler can do, said once: which groups of the state it leaves alone, and its four ends
(42_hop_sync.md R179). -/

namespace Sys2Proof.Machine

@[simp] theorem resync_of_not_due {s : State} (h : resyncDue s.cfg s.sync = false) : resync s = s := by
  simp [resync, h]

/-- Steps 5 and 6 write the sync group only. -/
theorem conclude_eq (t : Word) (s : State) : conclude t s = { s with sync := (conclude t s).sync } := by
  unfold conclude hopVerdict resync
  split <;> rfl

/-- What steps 5 and 6 leave, spelled out (42_hop_sync.md R177, R178). -/
theorem conclude_sync (t : Word) (s : State) :
    (conclude t s).sync =
      if resyncDue s.cfg s.sync then
        { s.sync with locked := false, cb := 0, shouldHop := paced s.cfg t s.sync.lastHop }
      else { s.sync with shouldHop := s.sync.locked || paced s.cfg t s.sync.lastHop } := by
  unfold conclude hopVerdict resync
  split <;> rfl

/-- The four ends of the handler: the frame buffers, the checksum, the Reading and the sync group are those of the
path taken, and every other group is unchanged. -/
theorem handleAt_cases {P : State → Prop} {b : Bool} {t : Word} {s : State}
    (hTimeout : b = true → P (conclude t (handleTimeout s)))
    (hCorrupt : b = false → residueOk s.cfg (checksum s.cfg s.cfg.crcInit (s.buf.raw.map bitrev8)) = false →
      P (conclude t (handleCorrupt (verifyDec (normalise s)))))
    (hWrong : b = false → residueOk s.cfg (checksum s.cfg s.cfg.crcInit (s.buf.raw.map bitrev8)) = true →
      addressed s.cfg ((normalise s).decAt 0) = false → P (handleWrongStation (verifyDec (normalise s))))
    (hGood : b = false → residueOk s.cfg (checksum s.cfg s.cfg.crcInit (s.buf.raw.map bitrev8)) = true →
      addressed s.cfg ((normalise s).decAt 0) = true →
      P (conclude t (handleGood t (verifyDec (normalise s))))) :
    P (handleAt b t s) := by
  cases b with
  | true => exact hTimeout rfl
  | false =>
    have hdec : (verifyDec (normalise s)).decAt 0 = (normalise s).decAt 0 := rfl
    cases hc : residueOk s.cfg (checksum s.cfg s.cfg.crcInit (s.buf.raw.map bitrev8)) with
    | false => simpa [handleAt, hc] using hCorrupt rfl hc
    | true =>
      cases ha : addressed s.cfg ((normalise s).decAt 0) with
      | false => simpa [handleAt, hc, hdec, ha] using hWrong rfl hc ha
      | true => simpa [handleAt, hc, hdec, ha] using hGood rfl hc ha

/-- The handler writes the checksum, the DecodedFrame, the Reading and the sync group, and nothing else. -/
theorem handleAt_frame (b : Bool) (t : Word) (s : State) :
    handleAt b t s =
      { s with
        chk := (handleAt b t s).chk
        buf := { s.buf with dec := (handleAt b t s).buf.dec }
        rd := (handleAt b t s).rd
        sync := (handleAt b t s).sync } := by
  refine handleAt_cases (P := fun h => h = { s with
    chk := h.chk, buf := { s.buf with dec := h.buf.dec }, rd := h.rd, sync := h.sync }) ?_ ?_ ?_ ?_
  · intro _; rw [conclude_eq]; rfl
  · intro _ _; rw [conclude_eq]; rfl
  · intro _ _ _; rfl
  · intro _ _ _; rw [conclude_eq]; rfl

/-- The handler with its sample of `now`: the inputs move on by the lag before the sample. -/
theorem handle_frame (b : Bool) (s : State) :
    handle b s =
      { s with
        chk := (handle b s).chk
        buf := { s.buf with dec := (handle b s).buf.dec }
        rd := (handle b s).rd
        sync := (handle b s).sync
        env := s.env.afterLag } := by
  unfold handle
  conv_lhs => rw [handleAt_frame]
  rfl

@[simp] theorem handle_cfg (b : Bool) (s : State) : (handle b s).cfg = s.cfg := by rw [handle_frame]
@[simp] theorem handle_phase (b : Bool) (s : State) : (handle b s).phase = s.phase := by rw [handle_frame]
@[simp] theorem handle_raw (b : Bool) (s : State) : (handle b s).buf.raw = s.buf.raw := by rw [handle_frame]
@[simp] theorem handle_drv (b : Bool) (s : State) : (handle b s).drv = s.drv := by rw [handle_frame]
@[simp] theorem handle_flt (b : Bool) (s : State) : (handle b s).flt = s.flt := by rw [handle_frame]
@[simp] theorem handle_resp (b : Bool) (s : State) : (handle b s).resp = s.resp := by rw [handle_frame]
@[simp] theorem handle_rstIn (b : Bool) (s : State) : (handle b s).rstIn = s.rstIn := by rw [handle_frame]
@[simp] theorem handle_host (b : Bool) (s : State) : (handle b s).host = s.host := by rw [handle_frame]
@[simp] theorem handle_env (b : Bool) (s : State) : (handle b s).env = s.env.afterLag := by rw [handle_frame]
@[simp] theorem handle_trace (b : Bool) (s : State) : (handle b s).trace = s.trace := by rw [handle_frame]

end Sys2Proof.Machine
end

