-- ==== Sys2Proof/Laws/Inputs.lean ====
section
/-! SUPPORT. How the inputs commute: a lag or a wait moves time and nothing of what the device answers; and what a
wait finds on the line (44_transceiver.md R222), said of ticks and not of the loop. -/

namespace Sys2Proof.Machine

/-! ### Time and answers -/

@[simp] theorem pass_pass (e : Env) (m n : Nat) : (e.pass m).pass n = e.pass (m + n) := by
  simp [Env.pass, Nat.add_assoc]

@[simp] theorem pass_zero (e : Env) : e.pass 0 = e := rfl

@[simp] theorem pass_irqLevel (e : Env) (n t : Nat) : (e.pass n).irqLevel t = e.irqLevel t := rfl

theorem pass_afterAnswers (e : Env) (n k : Nat) : (e.pass n).afterAnswers k = (e.afterAnswers k).pass n := by
  induction k generalizing e with
  | zero => rfl
  | succ k ih => simp [Env.afterAnswers, pass_afterAnswer, ih]

theorem afterAnswers_one (e : Env) : e.afterAnswers 1 = e.afterAnswer := rfl

@[simp] theorem afterAnswer_irqLevel (e : Env) (t : Nat) : e.afterAnswer.irqLevel t = e.irqLevel t := by
  unfold Env.afterAnswer
  split <;> rfl

@[simp] theorem afterAnswers_irqLevel (e : Env) (n t : Nat) : (e.afterAnswers n).irqLevel t = e.irqLevel t := by
  induction n generalizing e with
  | zero => rfl
  | succ n ih => simp [Env.afterAnswers, ih]

@[simp] theorem afterLag_irqLevel (e : Env) (t : Nat) : e.afterLag.irqLevel t = e.irqLevel t := by
  unfold Env.afterLag
  split <;> rfl

@[simp] theorem afterLag_nextAnswer (e : Env) : e.afterLag.nextAnswer = e.nextAnswer := by
  unfold Env.afterLag
  split <;> rfl

theorem afterLag_afterAnswer (e : Env) : e.afterLag.afterAnswer = e.afterAnswer.afterLag := by
  cases e with
  | mk t bs bd ls ld is => cases bs <;> cases ls <;> simp [Env.afterAnswer, Env.afterLag, Nat.add_right_comm]

@[simp] theorem afterLag_answers (e : Env) (n : Nat) : e.afterLag.answers n = e.answers n := by
  induction n generalizing e with
  | zero => rfl
  | succ n ih => simp [Env.answers, afterLag_afterAnswer, ih]

theorem afterLag_afterAnswers (e : Env) (n : Nat) : e.afterLag.afterAnswers n = (e.afterAnswers n).afterLag := by
  induction n generalizing e with
  | zero => rfl
  | succ n ih => simp [Env.afterAnswers, afterLag_afterAnswer, ih]

@[simp] theorem afterLag_succeeds {e : Env} {n : Nat} : e.afterLag.succeeds n ↔ e.succeeds n := by
  simp [Env.succeeds]

theorem time_le_afterAnswers (e : Env) (n : Nat) : e.time ≤ (e.afterAnswers n).time := by
  induction n generalizing e with
  | zero => exact le_refl _
  | succ n ih => exact (time_le_afterAnswer e).trans (ih _)

@[simp] theorem pass_answerAt (e : Env) (n k : Nat) : (e.pass n).answerAt k = e.answerAt k := by
  simp [Env.answerAt, pass_afterAnswers]

@[simp] theorem pass_answersFrom (e : Env) (n j k : Nat) : (e.pass n).answersFrom j k = e.answersFrom j k := by
  simp [Env.answersFrom, pass_afterAnswers]

@[simp] theorem afterLag_answerAt (e : Env) (k : Nat) : e.afterLag.answerAt k = e.answerAt k := by
  simp [Env.answerAt, afterLag_afterAnswers]

theorem answerAt_afterAnswers (e : Env) (n k : Nat) : (e.afterAnswers n).answerAt k = e.answerAt (n + k) := by
  simp [Env.answerAt, afterAnswers_add]

theorem answersFrom_afterAnswers (e : Env) (n j k : Nat) :
    (e.afterAnswers n).answersFrom j k = e.answersFrom (n + j) k := by
  simp [Env.answersFrom, afterAnswers_add]

@[simp] theorem answersFrom_length (e : Env) (n k : Nat) : (e.answersFrom n k).length = k := by
  simp [Env.answersFrom]

/-! ### The wait -/

/-- The first `left` ticks after `t` at which the line may rise. -/
theorem waitTicks_fired (env : Env) (left e t : Nat) :
    (waitTicks env left e t (env.irqLevel t)).fired = true →
      ∃ k, (waitTicks env left e t (env.irqLevel t)).ticks = e + k ∧ 1 ≤ k ∧ k ≤ left ∧
        env.irqLevel (t + k) = true ∧ env.irqLevel (t + k - 1) = false ∧
        ∀ j, 1 ≤ j → j < k → ¬ (env.irqLevel (t + j) = true ∧ env.irqLevel (t + j - 1) = false) := by
  induction left generalizing e t with
  | zero => simp [waitTicks]
  | succ left ih =>
    unfold waitTicks
    split
    · rename_i h
      intro _
      simp only [Bool.and_eq_true, Bool.not_eq_true'] at h
      exact ⟨1, rfl, le_refl 1, by omega, h.2, by simpa using h.1, fun j h1 h2 => by omega⟩
    · rename_i h
      intro hf
      obtain ⟨k, h1, h2, h3, h4, h5, h6⟩ := ih (e + 1) (t + 1) hf
      refine ⟨k + 1, by omega, by omega, by omega, by rw [← h4]; congr 1; omega,
        by rw [← h5]; congr 1; omega, fun j hj hjk => ?_⟩
      rcases Nat.lt_or_ge j 2 with hj2 | hj2
      · have : j = 1 := by omega
        subst this
        simp only [Nat.add_sub_cancel]
        simp only [Bool.and_eq_true, Bool.not_eq_true'] at h
        exact fun hc => h ⟨hc.2, hc.1⟩
      · have := h6 (j - 1) (by omega) (by omega)
        rwa [show t + 1 + (j - 1) = t + j by omega] at this

theorem waitTicks_timeout (env : Env) (left e t : Nat) :
    (waitTicks env left e t (env.irqLevel t)).fired = false →
      (waitTicks env left e t (env.irqLevel t)).ticks = e + left ∧
        ∀ j, 1 ≤ j → j ≤ left → ¬ (env.irqLevel (t + j) = true ∧ env.irqLevel (t + j - 1) = false) := by
  induction left generalizing e t with
  | zero => exact fun _ => ⟨by simp [waitTicks], fun j h1 h2 => by omega⟩
  | succ left ih =>
    unfold waitTicks
    split
    · simp
    · rename_i h
      intro hf
      obtain ⟨h1, h2⟩ := ih (e + 1) (t + 1) hf
      refine ⟨by omega, fun j hj hjk => ?_⟩
      rcases Nat.lt_or_ge j 2 with hj2 | hj2
      · have : j = 1 := by omega
        subst this
        simp only [Nat.add_sub_cancel]
        simp only [Bool.and_eq_true, Bool.not_eq_true'] at h
        exact fun hc => h ⟨hc.2, hc.1⟩
      · have := h2 (j - 1) (by omega) (by omega)
        rwa [show t + 1 + (j - 1) = t + j by omega] at this

/-- A wait that fires ends at the first rise after it began, within its timeout. -/
theorem waitEnd_fired {env : Env} {timeout : Nat} (h : (waitEnd env timeout).fired = true) :
    1 ≤ (waitEnd env timeout).ticks ∧ (waitEnd env timeout).ticks ≤ timeout ∧
      env.irqLevel (env.time + (waitEnd env timeout).ticks) = true ∧
      env.irqLevel (env.time + (waitEnd env timeout).ticks - 1) = false ∧
      ∀ j, 1 ≤ j → j < (waitEnd env timeout).ticks →
        ¬ (env.irqLevel (env.time + j) = true ∧ env.irqLevel (env.time + j - 1) = false) := by
  obtain ⟨k, h1, h2⟩ := waitTicks_fired env timeout 0 env.time h
  rw [Nat.zero_add] at h1
  rw [waitEnd, h1]
  exact h2

/-- A wait that times out lasts its timeout, and the line does not rise in it. -/
theorem waitEnd_timeout {env : Env} {timeout : Nat} (h : (waitEnd env timeout).fired = false) :
    (waitEnd env timeout).ticks = timeout ∧
      ∀ j, 1 ≤ j → j ≤ timeout → ¬ (env.irqLevel (env.time + j) = true ∧ env.irqLevel (env.time + j - 1) = false) := by
  have := waitTicks_timeout env timeout 0 env.time h
  rwa [Nat.zero_add] at this

end Sys2Proof.Machine
end

