-- ==== Sys2Proof/Laws/Procedures.lean ====
section
/-! SUPPORT. Every command is a sequence of the same few updates: a property that each update keeps (and that holds of
what each way of stopping leaves) holds however a procedure ends. The inductions over the push and the payload are
done here once. -/

namespace Sys2Proof.Machine

/-- `P` is kept by every update a bus command makes while it runs, and `E` holds wherever it can stop. -/
structure Closed (P E : State → Prop) : Prop where
  event : ∀ s ev e, s.env.time ≤ e.time → P s → P (s.passEvent ev e)
  issue : ∀ s, P s → P s.issue
  phase : ∀ s p, P s → P (s.enter p)
  irqPrev : ∀ s b, P s → P { s with drv := { s.drv with irqPrev := b } }
  mode : ∀ s m, P s → P (setMode m s)
  tune : ∀ s hz, P s → P (tuneMirror hz s)
  rssi : ∀ s v, P s → P (s.setRssi v)
  timedOut : ∀ s b, P s → P (s.setTimedOut b)
  raw : ∀ s i b, P s → P (s.setRaw i b)
  handle : ∀ s b, P s → P (handle b s)
  hop : ∀ s, P s → P (nextHop s)
  cut : ∀ s, P s → s.rstIn = some 0 → E s
  fail : ∀ s a r, P s → s.rstIn ≠ some 0 → E (raiseBusError a r s)
  poll : ∀ s k, P s → s.phase = .pollRssi k → E s

section
variable {P E : State → Prop} (C : Closed P E)
include C

/-- A transaction cut in flight stops where `rst_n` is low. -/
theorem Closed.inFlight (ev : Event) {s : State} (h : P s) (h1 : s.rstIn = some 1) : E (s.cutInFlight ev) :=
  C.cut _ (C.event s ev s.env (le_refl _) h) (by simp [h1])

theorem Closed.busRead (a : Byte) {s : State} (h : P s) : (busRead a s).Sat (fun _ => P) E :=
  have hev : P (s.afterRead a) := C.event _ _ _ (time_le_afterAnswer _) (C.issue s h)
  busRead_sat (C.cut s h) (C.inFlight _ h) (fun _ => hev) (C.cut _ hev) (C.fail _ a true hev)

theorem Closed.busWrite (a v : Byte) {s : State} (h : P s) : (busWrite a v s).Sat (fun _ => P) E :=
  have hev : P (s.afterWrite a v) := C.event _ _ _ (time_le_afterAnswer _) (C.issue s h)
  busWrite_sat (C.cut s h) (C.inFlight _ h) (fun _ => hev) (C.cut _ hev) (C.fail _ a false hev)

theorem Closed.delay (n : Nat) {s : State} (h : P s) : (delay n s).Sat (fun _ => P) E :=
  unlessReset_sat (C.cut s h) fun _ => C.event s _ _ (Nat.le_add_right _ _) h

theorem Closed.waitIrq (timeout : Nat) {s : State} (h : P s) : (waitIrq timeout s).Sat (fun _ => P) E :=
  have hw : P (s.enter .waitIrq) := C.phase s _ h
  unlessReset_sat (C.cut _ hw) fun _ =>
    C.irqPrev _ (waitEnd s.env timeout).irqPrev
      (C.phase _ .run
        (C.event s (.wait (waitEnd s.env timeout).ticks (waitEnd s.env timeout).fired)
          (s.env.pass (waitEnd s.env timeout).ticks) (Nat.le_add_right _ _) h))

theorem Closed.writeSlots (ks : List Nat) {s : State} (h : P s) : (writeSlots ks s).Sat (fun _ => P) E := by
  induction ks generalizing s with
  | nil => exact h
  | cons k ks ih => exact (C.busWrite _ _ h).andThen fun _ _ h' => ih h'

theorem Closed.push {s : State} (h : P s) : (push s).Sat (fun _ => P) E := C.writeSlots _ h

theorem Closed.readPayload (is : List Nat) {s : State} (h : P s) : (readPayload is s).Sat (fun _ => P) E := by
  induction is generalizing s with
  | nil => exact h
  | cons i is ih => exact (C.busRead _ h).andThen fun b _ h' => ih (C.raw _ i b h')

theorem Closed.setFrequency (hz : Word) {s : State} (h : P s) : (setFrequency hz s).Sat (fun _ => P) E :=
  C.push (C.tune s hz h)

theorem Closed.pollOnce (k : Resume) {s : State} (h : P s) : (pollOnce k s).Sat (fun _ => P) E := by
  have hp : P (s.enter (.pollRssi k)) := C.phase s _ h
  have hev : P ((s.enter (.pollRssi k)).afterRead s.cfg.addrRssiCfg) :=
    C.event _ _ _ (time_le_afterAnswer _) (C.issue _ hp)
  have hread := busRead_sat (a := s.cfg.addrRssiCfg) (Q := fun _ s' => P s' ∧ s'.phase = .pollRssi k)
    (C.cut _ hp) (C.inFlight _ hp) (fun _ => ⟨hev, rfl⟩) (C.cut _ hev) (C.fail _ s.cfg.addrRssiCfg true hev)
  refine hread.andThen fun v s' ⟨h', hphase⟩ => ?_
  split
  · exact C.phase _ _ h'
  · exact C.poll _ k h' hphase

theorem Closed.sampleRssi (b : Bool) (k : Resume) {s : State} (h : P s) :
    (sampleRssi b k s).Sat (fun _ => P) E := by
  unfold Machine.sampleRssi
  split
  · exact (C.busWrite _ _ h).andThen fun _ _ h' => (C.pollOnce k h').andThen fun _ _ h'' => C.busRead _ h''
  · exact C.busRead _ h

theorem Closed.receiveTail (fired : Bool) (v : Byte) {s : State} (h : P s) :
    (receiveTail fired v s).Sat (fun _ => P) E := by
  refine (C.push (C.mode _ _ (C.rssi s v h))).andThen fun _ s' h' => ?_
  unfold receivePayload
  split
  · exact (C.readPayload _ h').andThen fun _ _ h'' => C.timedOut _ _ h''
  · exact C.timedOut _ _ h'

theorem Closed.receive (timeout : Nat) (k : Bool → Resume) {s : State} (h : P s) :
    (receive timeout k s).Sat (fun _ => P) E := by
  have hwait := (C.push (C.mode s s.cfg.modeRx h)).andThen fun _ _ h' => C.waitIrq timeout h'
  exact hwait.andThen fun fired _ h' => (C.sampleRssi _ _ h').andThen fun v _ h'' => C.receiveTail fired v h''

theorem Closed.loopDecide {s : State} (h : P s) : (loopDecide s).Sat (fun _ => P) E := by
  have hh := C.handle s s.drv.rxTimedOut h
  unfold Machine.loopDecide
  dsimp only
  split
  · exact (C.setFrequency _ (C.hop _ hh)).andThen fun _ _ h' => h'
  · exact hh

theorem Closed.hopAndTune {s : State} (h : P s) : (hopAndTune s).Sat (fun _ => P) E :=
  C.setFrequency _ (C.hop s h)

theorem Closed.afterRssi (k : Resume) (v : Byte) {s : State} (h : P s) :
    (afterRssi k v s).Sat (fun _ => P) E := by
  cases k with
  | readRssi => exact C.rssi s v h
  | receive fired => exact (C.receiveTail fired v h).andThen fun _ _ h' => h'
  | loopStep fired => exact (C.receiveTail fired v h).andThen fun _ _ h' => C.loopDecide h'

end

/-- What a turn of the poll leaves, when answering `OK` leaves `E` too. -/
theorem Closed.resume {P E : State → Prop} (C : Closed P E)
    (hok : ∀ s v, P s → s.rstIn ≠ some 0 → E (respond .ok v s)) (k : Resume) {s : State} (h : P s) :
    E (Machine.resume k s) := by
  refine Res.Sat.finish (Q := fun _ => P) ?_ (fun _ s h => C.cut s h) fun v s h => hok s v h
  exact (C.pollOnce k h).andThen fun _ _ h' => (C.busRead _ h').andThen fun v _ h'' => C.afterRssi k v h''

/-- Device reset, whose line is high in between: `H` is what holds while it is. -/
theorem Closed.deviceReset {P E H : State → Prop} (C : Closed P E)
    (rise : ∀ s, P s →
      H { s.passEvent (.rst true) s.env with phase := .rstHigh, drv := { s.drv with devRst := true } })
    (held : ∀ s ev e, s.env.time ≤ e.time → H s → H (s.passEvent ev e))
    (cut : ∀ s, H s → s.rstIn = some 0 → E s)
    (fall : ∀ s, H s →
      P { s.passEvent (.rst false) s.env with phase := .rstSettle, drv := { s.drv with devRst := false } })
    {s : State} (h : P s) : (deviceReset s).Sat (fun _ => P) E := by
  have hrise : (driveReset true .rstHigh s).Sat (fun _ => H) E :=
    unlessReset_sat (C.cut s h) fun _ => rise s h
  refine hrise.andThen fun _ s1 h1 => ?_
  have hheld : (Machine.delay s1.cfg.rstHigh.toNat s1).Sat (fun _ => H) E :=
    unlessReset_sat (cut s1 h1) fun _ => held s1 _ _ (Nat.le_add_right _ _) h1
  refine hheld.andThen fun _ s2 h2 => ?_
  have hfall : (driveReset false .rstSettle s2).Sat (fun _ => P) E :=
    unlessReset_sat (cut s2 h2) fun _ => fall s2 h2
  exact hfall.andThen fun _ s3 h3 => (C.delay _ h3).andThen fun _ s4 h4 => C.push (C.phase s4 _ h4)

end Sys2Proof.Machine
end

