-- ==== Sys2Proof/Laws/Memory.lean ====
section
/-! SUPPORT. The byte arrays keep their one canonical form, the lengths of the configuration (Memory.wf), through every
operation that touches them, and have it at reset; and the invariant of the registers holds where a command runs. -/

namespace Sys2Proof.Machine

theorem memory_wf_atReset (c : Config) (h : c.mirReset.length = c.slots) (inputs : List HostInput) (e : Env)
    (tr : List Event) : Memory.wf (State.atReset c inputs e tr) := by
  simp [Memory.wf, State.atReset, h]

theorem memory_wf_setRaw {s : State} (i : Nat) (b : Byte) (h : Memory.wf s) : Memory.wf (s.setRaw i b) := by
  simpa [Memory.wf] using h

theorem memory_wf_setMir {s : State} (k : Nat) (b : Byte) (h : Memory.wf s) : Memory.wf (s.setMir k b) := by
  simpa [Memory.wf] using h

theorem memory_wf_normalise {s : State} (h : Memory.wf s) : Memory.wf (normalise s) := by
  exact ⟨h.1, by simpa using h.1, h.2.2⟩

theorem memory_wf_setMode {s : State} (m : Byte) (h : Memory.wf s) : Memory.wf (setMode m s) := by
  simpa [Memory.wf] using h

theorem memory_wf_tuneMirror {s : State} (hz : Word) (h : Memory.wf s) : Memory.wf (tuneMirror hz s) := by
  simpa [Memory.wf] using h

theorem memory_wf_handle {s : State} (b : Bool) (h : Memory.wf s) : Memory.wf (handle b s) := by
  obtain ⟨h1, h2, h3⟩ := h
  have hdec : (handle b s).buf.dec.length = s.cfg.frameLen := by
    unfold handle
    refine handleAt_cases (P := fun t => t.buf.dec.length = s.cfg.frameLen) ?_ ?_ ?_ ?_
    · intro _; rw [conclude_eq]; simpa [handleTimeout] using h2
    · intro _ _; rw [conclude_eq]; simpa [handleCorrupt] using h1
    · intro _ _ _; simpa [handleWrongStation] using h1
    · intro _ _ _; rw [conclude_eq]; simpa [handleGood] using h1
  exact ⟨by simpa using h1, by simpa using hdec, by simpa using h3⟩

/-- A property of the byte arrays and the configuration that the bus procedures keep: here, the lengths. -/
theorem memory_closed : Closed Memory.wf Memory.wf where
  event _ _ _ _ h := h
  issue _ h := h
  phase _ _ h := h
  irqPrev _ _ h := h
  mode _ m h := memory_wf_setMode m h
  tune _ hz h := memory_wf_tuneMirror hz h
  rssi _ _ h := h
  timedOut _ _ h := h
  raw _ i b h := memory_wf_setRaw i b h
  handle _ b h := memory_wf_handle b h
  hop _ h := h
  cut _ h _ := h
  fail _ _ _ h _ := h
  poll _ _ h _ := h

/-- The invariant between two steps says what the register invariant says. -/
theorem regInv_of_inv {s : State} (h : s.Inv) : s.RegInv :=
  ⟨h.1, h.2.1, h.2.2.1, h.2.2.2.1, h.2.2.2.2.1, h.2.2.2.2.2.2.1⟩

/-- The register invariant holds in the state in which a command is accepted. -/
theorem regInv_accept {s : State} (h : s.RegInv) (rest : List HostInput) : (s.accept rest).RegInv := h

end Sys2Proof.Machine
end

