-- ==== Sys2Proof/Laws/Params.lean ====
section
/-! SUPPORT. The build that State.reset describes meets the constraints of 00_scope.md R6. -/

namespace Sys2Proof

theorem Config.fallback_wf : (Config.reference Config.fallbackParams).wf := by decide

theorem Config.build_wf : Config.build.wf := by
  unfold Config.build Config.buildParams
  split
  · assumption
  · exact Config.fallback_wf

theorem Config.build_rxRssiTrigger : Config.build.rxRssiTrigger = false := rfl
theorem Config.build_poly : Config.build.poly = 0x1021 := rfl
theorem Config.build_crcInit : Config.build.crcInit = 0 := rfl
theorem Config.build_residue : Config.build.residue = 0 := rfl
theorem Config.build_channels : Config.build.channels = 51 := rfl
theorem Config.build_frameLen : Config.build.frameLen = 10 := rfl
theorem Config.build_badThreshold : Config.build.badThreshold = 5 := rfl

end Sys2Proof
end

