-- ==== Sys2Proof/Laws/PerInstr.lean ====
section
/-! SUPPORT. Per-instruction laws: one lemma per constructor of Instr. -/

namespace Sys2Proof.Laws.EncodeInRow

/-- The word of a command has the bits of its row of the opcode table (30_encoding.md R97). -/
abbrev Statement (i : Instr) : Prop := i.row.holds (encode i) = true

/-- A word with the row's opcode and no argument bit under the mask holds the row. -/
theorem holds_of {op : Byte} {arg m : Word} {fixed mask : Command} (hm : mask = wordOf 0xFF m)
    (hf : fixed = wordOf op 0) (ha : arg &&& m = 0) :
    TableRow.holds { fixed := fixed, mask := mask } (wordOf op arg) = true := by
  have hop : op &&& 0xFF = op := BitVec.and_allOnes
  subst hm hf
  simp only [TableRow.holds, wordOf_and, ha, hop, beq_self_eq_true]

/-- A field of `n` bits has no bit under a mask of the bits from `n` up. -/
theorem field_and_mask {n : Nat} (b : BitVec n) {m : Word} (hm : ∀ i < n, m.getLsbD i = false) :
    b.setWidth 32 &&& m = 0 := by
  apply BitVec.eq_of_getLsbD_eq
  intro i hi
  rcases Nat.lt_or_ge i n with h | h
  · simp [hm i h]
  · simp [BitVec.getLsbD_of_ge b i h]

theorem nop : Statement .nop := by decide
theorem rd (b : Byte) : Statement (.rd b) :=
  holds_of (m := 0xffffff00) (by decide) (by decide) (field_and_mask _ (by decide))
theorem crcTbl (b : Byte) : Statement (.crcTbl b) :=
  holds_of (m := 0xffffff00) (by decide) (by decide) (field_and_mask _ (by decide))
theorem crcInit (h : Half) : Statement (.crcInit h) :=
  holds_of (m := 0xffff0000) (by decide) (by decide) (field_and_mask _ (by decide))
theorem crcByte (b : Byte) : Statement (.crcByte b) :=
  holds_of (m := 0xffffff00) (by decide) (by decide) (field_and_mask _ (by decide))
theorem crcFrame : Statement .crcFrame := by decide
theorem bitrev (b : Byte) : Statement (.bitrev b) :=
  holds_of (m := 0xffffff00) (by decide) (by decide) (field_and_mask _ (by decide))
theorem frameLd (x : BitVec 4) (b : Byte) : Statement (.frameLd x b) :=
  holds_of (m := 0xfffff000) (by decide) (by decide) (field_and_mask _ (by decide))
theorem frameNorm : Statement .frameNorm := by decide
theorem decodeFrame : Statement .decodeFrame := by decide
theorem hpktI (f : Bool) : Statement (.hpktI f) := by cases f <;> decide
theorem hpktR : Statement .hpktR := by decide
theorem planFreq (b : Byte) : Statement (.planFreq b) :=
  holds_of (m := 0xffffff00) (by decide) (by decide) (field_and_mask _ (by decide))
theorem planHop (b : Byte) : Statement (.planHop b) :=
  holds_of (m := 0xffffff00) (by decide) (by decide) (field_and_mask _ (by decide))
theorem nextHop : Statement .nextHop := by decide
theorem syncRegs : Statement .syncRegs := by decide
theorem setFreqI (w : Word) : Statement (.setFreqI w) := holds_of (m := 0) (by decide) (by decide) BitVec.and_zero
theorem setFreqH : Statement .setFreqH := by decide
theorem receiveI (w : Word) : Statement (.receiveI w) := holds_of (m := 0) (by decide) (by decide) BitVec.and_zero
theorem receiveD : Statement .receiveD := by decide
theorem devReset : Statement .devReset := by decide
theorem readRssi (f : Bool) : Statement (.readRssi f) := by cases f <;> decide
theorem loopInit : Statement .loopInit := by decide
theorem loopStep : Statement .loopStep := by decide

end Sys2Proof.Laws.EncodeInRow
end

