-- ==== Sys2Proof/Laws/Success.lean ====
section
/-! SUPPORT. What the bus procedures leave when nothing cuts them: the device answers with success and `rst_n` stays
high. Each says the whole state after. -/

namespace Sys2Proof.Machine

/-- A run of slot writes: one event each, the mirror and everything else of the CORE as it was. -/
theorem writeSlots_ok (ks : List Nat) {s : State} (hr : s.rstIn = none) (hs : s.env.succeeds ks.length) :
    writeSlots ks s =
      .ok () { s with
        env := s.env.afterAnswers ks.length
        trace := s.trace ++ slotWrites s.cfg s.drv.mir ks } := by
  induction ks generalizing s with
  | nil => simp [writeSlots, Env.afterAnswers, slotWrites]
  | cons k ks ih =>
    obtain ⟨h1, h2⟩ := succeeds_succ.mp hs
    unfold writeSlots
    rw [busWrite_ok hr h1, ok_andThen, ih (by simp [hr]) h2]
    simp [Env.afterAnswers, slotWrites, h1, afterWrite_of_none hr, State.mirAt]

theorem pushOrder_length (c : Config) (b : Byte) (h : 1 ≤ c.slots) : (c.pushOrder b).length = c.slots := by
  unfold Config.pushOrder
  split
  · simp; omega
  · simp

/-- A whole push (44_transceiver.md R212): every slot once, in the order of the mode byte. -/
theorem push_ok {s : State} (hslots : 1 ≤ s.cfg.slots) (hr : s.rstIn = none) (hs : s.env.succeeds s.cfg.slots) :
    push s =
      .ok () { s with
        env := s.env.afterAnswers s.cfg.slots
        trace := s.trace ++ slotWrites s.cfg s.drv.mir (s.cfg.pushOrder (s.mirAt 0)) } := by
  have hl := pushOrder_length s.cfg (s.mirAt 0) hslots
  unfold push
  rw [writeSlots_ok _ hr (by rw [hl]; exact hs), hl]

/-- The payload events of successful reads of the bytes `bs` (20_memory.md R67). -/
def payloadReads (c : Config) (bs : List Byte) : List Event := bs.map fun b => .read c.addrFifo (some b)

theorem readPayload_ok (n : Nat) (bs : List Byte) {s : State} (hr : s.rstIn = none)
    (hs : s.env.succeeds bs.length) (hb : (s.env.answers bs.length).map BusAnswer.data = bs)
    (hlen : n + bs.length = s.buf.raw.length) :
    readPayload (List.range' n bs.length) s =
      .ok () { s with
        env := s.env.afterAnswers bs.length
        buf := { s.buf with raw := s.buf.raw.take n ++ bs }
        trace := s.trace ++ payloadReads s.cfg bs } := by
  induction bs generalizing n s with
  | nil =>
    have : s.buf.raw.take n = s.buf.raw := List.take_of_length_le (by simp at hlen; omega)
    simp [readPayload, Env.afterAnswers, payloadReads, this]
  | cons b bs ih =>
    obtain ⟨h1, h2⟩ := succeeds_succ.mp hs
    simp only [List.length_cons, Env.answers, List.map_cons, List.cons.injEq] at hb
    obtain ⟨hb1, hb2⟩ := hb
    simp only [List.length_cons] at hlen
    rw [List.length_cons, List.range'_succ]
    unfold readPayload
    rw [busRead_ok hr h1, ok_andThen, ih (n + 1) (by simp [hr]) (by simpa using h2) (by simpa using hb2)
      (by simp; omega)]
    have hn : n < s.buf.raw.length := by omega
    simp only [setRaw_env, afterRead_env, setRaw_buf, afterRead_buf, setRaw_trace, afterRead_trace, h1, if_true, hb1,
      Env.afterAnswers, payloadReads, setRaw_cfg, afterRead_cfg, List.map_cons, List.append_assoc,
      List.cons_append, List.nil_append]
    have htake : (s.buf.raw.set n b).take (n + 1) = s.buf.raw.take n ++ [b] := by
      rw [List.take_add_one, List.getElem?_set_self hn, List.take_set_of_le (le_refl n)]
      simp
    simp [htake, State.setRaw, afterRead_of_none hr]

/-- The bounded wait is one event, as long as `waitEnd` says (44_transceiver.md R222). -/
theorem waitIrq_ok (timeout : Nat) {s : State} (hr : s.rstIn = none) :
    waitIrq timeout s =
      .ok (waitEnd s.env timeout).fired { s with
        phase := .run
        drv := { s.drv with irqPrev := (waitEnd s.env timeout).irqPrev }
        env := s.env.pass (waitEnd s.env timeout).ticks
        trace := s.trace ++ [.wait (waitEnd s.env timeout).ticks (waitEnd s.env timeout).fired] } := by
  unfold waitIrq
  rw [unlessReset_of_none (by simpa using hr)]
  simp [State.passEvent, hr]

/-- One turn of the poll that sees a ready bit ends it (45_rssi.md R247). -/
theorem pollOnce_ready (k : Resume) {s : State} (hr : s.rstIn = none) (hs : s.env.nextAnswer.ok = true)
    (hready : s.env.nextAnswer.data &&& s.cfg.rssiDone ≠ 0) :
    pollOnce k s =
      .ok () { s with
        phase := .run
        env := s.env.afterAnswer
        trace := s.trace ++ [.read s.cfg.addrRssiCfg (some s.env.nextAnswer.data)] } := by
  unfold pollOnce
  rw [busRead_ok (by simpa using hr) (by simpa using hs), ok_andThen]
  simp [State.afterRead, State.issue, State.passEvent, State.enter, hr, hs]
  exact hready

/-- One turn of the poll that sees no ready bit leaves the command in it (45_rssi.md R247). -/
theorem pollOnce_waiting (k : Resume) {s : State} (hr : s.rstIn = none) (hs : s.env.nextAnswer.ok = true)
    (hready : s.env.nextAnswer.data &&& s.cfg.rssiDone = 0) :
    pollOnce k s =
      .stop { s with
        phase := .pollRssi k
        env := s.env.afterAnswer
        trace := s.trace ++ [.read s.cfg.addrRssiCfg (some s.env.nextAnswer.data)] } := by
  unfold pollOnce
  rw [busRead_ok (by simpa using hr) (by simpa using hs), ok_andThen]
  simp [State.afterRead, State.issue, State.passEvent, State.enter, hr, hs, hready]

/-- The value read that ends a `sample_rssi` (45_rssi.md R249). -/
theorem readRssiValue_ok {s : State} (hr : s.rstIn = none) (hs : s.env.nextAnswer.ok = true) :
    readRssiValue s =
      .ok s.env.nextAnswer.data { s with
        env := s.env.afterAnswer
        trace := s.trace ++ [.read s.cfg.addrRssiVal (some s.env.nextAnswer.data)] } := by
  unfold readRssiValue
  rw [busRead_ok hr hs]
  simp [afterRead_of_none hr, hs]

/-- A whole `sample_rssi` whose first poll, if it polls, sees a ready bit (45_rssi.md R249). -/
theorem sampleRssi_ok (trigger : Bool) (k : Resume) {s : State} (hr : s.rstIn = none)
    (hs : s.env.succeeds (sampleSteps trigger))
    (hready : trigger = true → s.env.answerAt 1 &&& s.cfg.rssiDone ≠ 0) :
    sampleRssi trigger k s =
      .ok (s.env.answerAt (sampleSteps trigger - 1)) { s with
        phase := if trigger then .run else s.phase
        env := s.env.afterAnswers (sampleSteps trigger)
        trace := s.trace ++
          sampleEvents s.cfg trigger (s.env.answerAt 1) (s.env.answerAt (sampleSteps trigger - 1)) } := by
  cases trigger with
  | false =>
    simp only [sampleRssi, Bool.false_eq_true, if_false]
    rw [readRssiValue_ok hr (succeeds_one.mp hs)]
    rfl
  | true =>
    obtain ⟨h1, hs⟩ := succeeds_succ.mp (show s.env.succeeds (2 + 1) from hs)
    obtain ⟨h2, hs⟩ := succeeds_succ.mp (show s.env.afterAnswer.succeeds (1 + 1) from hs)
    simp only [sampleRssi, if_true]
    rw [busWrite_ok hr h1, ok_andThen, pollOnce_ready k (by simp [hr]) (by simpa using h2)
      (by simpa [Env.answerAt, Env.afterAnswers] using hready rfl), ok_andThen, readRssiValue_ok (by simp [hr]) (by simpa using succeeds_one.mp hs)]
    simp [afterWrite_of_none hr, h1, sampleEvents, sampleSteps, Env.answerAt, Env.afterAnswers]

/-- A `sample_rssi` whose first poll sees no ready bit leaves the command in the poll (45_rssi.md R247, R249). -/
theorem sampleRssi_waiting (k : Resume) {s : State} (hr : s.rstIn = none) (hs : s.env.succeeds 2)
    (hready : s.env.answerAt 1 &&& s.cfg.rssiDone = 0) :
    sampleRssi true k s =
      .stop { s with
        phase := .pollRssi k
        env := s.env.afterAnswers 2
        trace := s.trace ++ [.write s.cfg.addrRssiCfg s.cfg.rssiStart true,
          .read s.cfg.addrRssiCfg (some (s.env.answerAt 1))] } := by
  obtain ⟨h1, h2⟩ := succeeds_succ.mp (show s.env.succeeds (1 + 1) from hs)
  simp only [sampleRssi, if_true]
  rw [busWrite_ok hr h1, ok_andThen, pollOnce_waiting k (by simp [hr]) (by simpa using succeeds_one.mp h2)
    (by simpa [Env.answerAt, Env.afterAnswers] using hready)]
  simp [afterWrite_of_none hr, h1, Env.answerAt, Env.afterAnswers]

end Sys2Proof.Machine
end

