-- ==== Sys2Proof/Laws/Receive.lean ====
section
/-! SUPPORT. The mode byte of the mirror (44_transceiver.md R207), the order a push takes for each mode, and what a whole
`receive` leaves when nothing cuts it. -/

namespace Sys2Proof.Machine

/-! ### The mode byte -/

theorem withMode_and_mask {c : Config} {m : Byte} (hm : m &&& ~~~c.modeMask = 0) (b : Byte) :
    c.withMode b m &&& c.modeMask = m := by
  have hb : ∀ i, m.getLsbD i = true → c.modeMask.getLsbD i = true := by
    intro i hi
    have := congrArg (fun x => x.getLsbD i) hm
    rcases Nat.lt_or_ge i 8 with h | h
    · simpa [hi, h] using this
    · simp [BitVec.getLsbD_of_ge m i h] at hi
  apply BitVec.eq_of_getLsbD_eq
  intro i hi
  have := hb i
  simp only [Config.withMode, BitVec.getLsbD_and, BitVec.getLsbD_or, BitVec.getLsbD_not, hi]
  cases h1 : m.getLsbD i <;> cases h2 : c.modeMask.getLsbD i <;> simp_all

/-- A mode set over another mode leaves no trace of it. -/
theorem withMode_withMode {c : Config} {m : Byte} (hm : m &&& ~~~c.modeMask = 0) (b n : Byte) :
    c.withMode (c.withMode b m) n = c.withMode b n := by
  have hb : ∀ i, m.getLsbD i = true → c.modeMask.getLsbD i = true := by
    intro i hi
    have := congrArg (fun x => x.getLsbD i) hm
    rcases Nat.lt_or_ge i 8 with h | h
    · simpa [hi, h] using this
    · simp [BitVec.getLsbD_of_ge m i h] at hi
  apply BitVec.eq_of_getLsbD_eq
  intro i hi
  have := hb i
  simp only [Config.withMode, BitVec.getLsbD_and, BitVec.getLsbD_or, BitVec.getLsbD_not, hi]
  cases h1 : m.getLsbD i <;> cases h2 : c.modeMask.getLsbD i <;> simp_all

theorem isRx_withRx {c : Config} (h : c.modeWf) (b : Byte) : c.isRx (c.withMode b c.modeRx) = true := by
  simp [Config.isRx, withMode_and_mask h.2.2.2.1]

theorem isRx_withStandby {c : Config} (h : c.modeWf) (b : Byte) :
    c.isRx (c.withMode b c.modeStandby) = false := by
  simpa [Config.isRx, withMode_and_mask h.2.2.1] using Ne.symm h.2.2.2.2

/-- Into RX: the mode byte last (44_transceiver.md R212). -/
theorem pushOrder_rx {c : Config} (h : c.modeWf) (b : Byte) :
    c.pushOrder (c.withMode b c.modeRx) = List.range' 1 (c.slots - 1) ++ [0] := by
  simp [Config.pushOrder, isRx_withRx h]

/-- Out of RX: the mode byte first (44_transceiver.md R212). -/
theorem pushOrder_standby {c : Config} (h : c.modeWf) (b : Byte) :
    c.pushOrder (c.withMode b c.modeStandby) = List.range c.slots := by
  simp [Config.pushOrder, isRx_withStandby h]

/-- The mirror with its mode field set. -/
def modeMirror (c : Config) (mir : List Byte) (m : Byte) : List Byte := mir.set 0 (c.withMode (mir.getD 0 0) m)

theorem setMode_eq (m : Byte) (s : State) :
    setMode m s = { s with drv := { s.drv with mir := modeMirror s.cfg s.drv.mir m } } := rfl

theorem modeMirror_getD {c : Config} {mir : List Byte} (m : Byte) (h : 1 ≤ mir.length) :
    (modeMirror c mir m).getD 0 0 = c.withMode (mir.getD 0 0) m := by
  cases mir with
  | nil => simp at h
  | cons a l => rfl

theorem modeMirror_modeMirror {c : Config} {m : Byte} (hm : m &&& ~~~c.modeMask = 0) (mir : List Byte) (n : Byte) :
    modeMirror c (modeMirror c mir m) n = modeMirror c mir n := by
  cases mir with
  | nil => rfl
  | cons a l => simp [modeMirror, withMode_withMode hm]

/-! ### A whole receive -/

/-- Enter RX and wait (44_transceiver.md R220 steps 1, 2). -/
theorem receiveWait_ok (timeout : Nat) {s : State} (hc : s.cfg.wf) (hm : Memory.wf s) (hr : s.rstIn = none)
    (hs : s.env.succeeds s.cfg.slots) :
    let w := waitEnd (s.env.afterAnswers s.cfg.slots) timeout
    let mir := modeMirror s.cfg s.drv.mir s.cfg.modeRx
    receiveWait timeout s =
      .ok w.fired { s with
        phase := .run
        drv := { s.drv with mir := mir, irqPrev := w.irqPrev }
        env := (s.env.afterAnswers s.cfg.slots).pass w.ticks
        trace := s.trace ++ slotWrites s.cfg mir (List.range' 1 (s.cfg.slots - 1) ++ [0]) ++
          [.wait w.ticks w.fired] } := by
  have h4 : 4 ≤ s.cfg.slots := hc.2.2.1.1
  have hl : 1 ≤ s.drv.mir.length := by rw [hm.2.2]; omega
  have hmir : (setMode s.cfg.modeRx s).mirAt 0 = s.cfg.withMode (s.mirAt 0) s.cfg.modeRx := modeMirror_getD _ hl
  simp only [receiveWait]
  rw [push_ok (by simpa using by omega) (by simpa using hr) (by simpa using hs), ok_andThen,
    waitIrq_ok _ (by simpa using hr)]
  simp only [hmir, setMode_cfg, pushOrder_rx hc.2.2.2]
  simp only [setMode_eq]

/-- Store the RSSI, leave RX, read the payload when the edge came (44_transceiver.md R220 steps 3 to 5). -/
theorem receiveTail_ok (fired : Bool) (rssi : Byte) {s : State} (hc : s.cfg.wf) (hm : Memory.wf s)
    (hr : s.rstIn = none) (hs : s.env.succeeds (s.cfg.slots + if fired then s.cfg.frameLen else 0)) :
    let mir := modeMirror s.cfg s.drv.mir s.cfg.modeStandby
    let payload := ((s.env.afterAnswers s.cfg.slots).answers s.cfg.frameLen).map BusAnswer.data
    receiveTail fired rssi s =
      .ok () { s with
        buf := { s.buf with raw := if fired then payload else s.buf.raw }
        drv := { s.drv with mir := mir, rssiRaw := rssi, rxTimedOut := !fired }
        env := s.env.afterAnswers (s.cfg.slots + if fired then s.cfg.frameLen else 0)
        trace := s.trace ++ slotWrites s.cfg mir (List.range s.cfg.slots) ++
          if fired then payloadReads s.cfg payload else [] } := by
  have h4 : 4 ≤ s.cfg.slots := hc.2.2.1.1
  have hl : 1 ≤ s.drv.mir.length := by rw [hm.2.2]; omega
  have hmir : (setMode s.cfg.modeStandby (s.setRssi rssi)).mirAt 0 =
      s.cfg.withMode (s.mirAt 0) s.cfg.modeStandby := modeMirror_getD _ hl
  obtain ⟨hs1, hs2⟩ := succeeds_add.mp hs
  simp only [receiveTail]
  rw [push_ok (by simpa using by omega) (by simpa using hr) (by simpa using hs1), ok_andThen]
  simp only [hmir, setMode_cfg, setRssi_cfg, pushOrder_standby hc.2.2.2]
  cases fired with
  | false => simp [receivePayload, setMode_eq, State.setTimedOut, State.setRssi]
  | true =>
    simp only [if_true] at hs2 ⊢
    have hp := readPayload_ok (s := { setMode s.cfg.modeStandby (s.setRssi rssi) with
        env := s.env.afterAnswers s.cfg.slots
        trace := s.trace ++ slotWrites s.cfg (modeMirror s.cfg s.drv.mir s.cfg.modeStandby) (List.range s.cfg.slots) })
      0 (((s.env.afterAnswers s.cfg.slots).answers s.cfg.frameLen).map BusAnswer.data) hr
      (by simpa using hs2) (by simp) (by simpa using hm.1.symm)
    simp only [List.length_map, answers_length, ← List.range_eq_range'] at hp
    simp only [receivePayload, if_true]
    simp only [setMode_eq, setRssi_env, setRssi_trace, setRssi_cfg] at hp ⊢
    simp only [State.setRssi] at hp ⊢
    rw [hp]
    simp [State.setTimedOut, afterAnswers_add]

/-- A whole `receive` whose sampler, if it polls, sees a ready bit at its first poll (44_transceiver.md R220): `n` writes
into RX, the wait, the sample, `n` writes into standby, the payload. -/
theorem receive_ok (timeout : Nat) (k : Bool → Resume) {s : State} (hc : s.cfg.wf) (hm : Memory.wf s)
    (hr : s.rstIn = none)
    (hs : s.env.succeeds (s.cfg.slots + sampleSteps s.cfg.rxRssiTrigger + s.cfg.slots + s.cfg.frameLen))
    (hready : s.cfg.rxRssiTrigger = true → s.env.answerAt (s.cfg.slots + 1) &&& s.cfg.rssiDone ≠ 0) :
    let n := s.cfg.slots
    let m := sampleSteps s.cfg.rxRssiTrigger
    let w := waitEnd (s.env.afterAnswers n) timeout
    let rssi := s.env.answerAt (n + (m - 1))
    let rx := modeMirror s.cfg s.drv.mir s.cfg.modeRx
    let standby := modeMirror s.cfg s.drv.mir s.cfg.modeStandby
    let payload := s.env.answersFrom (n + m + n) s.cfg.frameLen
    receive timeout k s =
      .ok () { s with
        phase := .run
        buf := { s.buf with raw := if w.fired then payload else s.buf.raw }
        drv := { s.drv with mir := standby, rssiRaw := rssi, rxTimedOut := !w.fired, irqPrev := w.irqPrev }
        env := (s.env.afterAnswers (n + m + n + if w.fired then s.cfg.frameLen else 0)).pass w.ticks
        trace := s.trace ++ slotWrites s.cfg rx (List.range' 1 (n - 1) ++ [0]) ++ [.wait w.ticks w.fired] ++
          sampleEvents s.cfg s.cfg.rxRssiTrigger (s.env.answerAt (n + 1)) rssi ++
          slotWrites s.cfg standby (List.range n) ++ if w.fired then payloadReads s.cfg payload else [] } := by
  intro n m w rssi rx standby payload
  have hs1 : s.env.succeeds n := succeeds_of_le hs (by omega)
  have hs2 : (s.env.afterAnswers n).succeeds m :=
    (succeeds_add.mp (succeeds_of_le hs (by omega : n + m ≤ _))).2
  have hs3 : (s.env.afterAnswers (n + m)).succeeds (n + s.cfg.frameLen) :=
    (succeeds_add.mp (succeeds_of_le hs (by omega : (n + m) + (n + s.cfg.frameLen) ≤ _))).2
  simp only [receive]
  rw [receiveWait_ok timeout hc hm hr hs1, ok_andThen, sampleRssi_ok]
  rotate_left
  · exact hr
  · simpa using hs2
  · exact fun h => by simpa [answerAt_afterAnswers] using hready h
  have hmm := modeMirror_modeMirror hc.2.2.2.2.2.2.1 s.drv.mir s.cfg.modeStandby
  rw [ok_andThen, receiveTail_ok]
  · have e1 : ∀ x, n + m + (n + x) = n + m + n + x := by omega
    simp only [show s.cfg.slots = n from rfl, show sampleSteps s.cfg.rxRssiTrigger = m from rfl, hmm,
      pass_afterAnswers, pass_answers, pass_answerAt, answerAt_afterAnswers, ← afterAnswers_add, e1, ite_self]
    simp only [List.append_assoc]
    rfl
  · exact hc
  · simpa [modeMirror, Memory.wf] using hm
  · exact hr
  · simp only [pass_afterAnswers, ← afterAnswers_add]
    refine pass_succeeds.mpr (succeeds_of_le hs3 ?_)
    simp only [show s.cfg.slots = n from rfl]
    split <;> omega

end Sys2Proof.Machine
end

