-- ==== Sys2Proof/Tests/Slice0.lean ====
section
/-! SUPPORT. The model's own tests. The words are written out from 30_encoding.md R93 and R97, the expected values are
those of 95_test_vectors.md (its section or row stands beside each), and the last part shows, for every obligation with
hypotheses, a state and operands that meet them. -/

set_option maxRecDepth 8000

namespace Sys2Proof.Tests

open Sys2Proof.Machine Sys2Proof.Spec

/-! ### The test configuration and a small state -/

/-- TC of 95_test_vectors.md section 4. -/
def tc : Config :=
  { Config.reference Config.fallbackParams with
    channels := 4, freq := [902000000, 903000000, 904000000, 905000000], hop := [2, 0, 3, 1]
    stationNumber := 1, dwellBase := 2500, dwellStep := 63, slots := 6, addr := [1, 7, 8, 9, 0x19, 0x1A]
    mirReset := [4, 0xE4, 0xC0, 0, 0x55, 0xAA], modeMask := 0x1C, modeStandby := 4, modeRx := 0x10
    addrFifo := 0, addrRssiCfg := 0x23, addrRssiVal := 0x24, rssiStart := 1, rssiDone := 2
    rstHigh := 1, rstSettle := 5 }

/-- TC with a dwell of 3 ticks, for tests that wait. -/
def tcShort : Config := { tc with dwellBase := 2, dwellStep := 1 }

/-- TC with a dwell of 3 ticks and the RSSI trigger in `receive`. -/
def tcTrigger : Config := { tcShort with rxRssiTrigger := true }

/-- A successful write. -/
def w : BusAnswer := { ok := true, data := 0, ticks := 0 }

/-- A failed transaction. -/
def x : BusAnswer := { ok := false, data := 0, ticks := 0 }

/-- A successful read. -/
def r (b : Byte) : BusAnswer := { ok := true, data := b, ticks := 0 }

/-- Six successful writes: a push under TC. -/
def push6 : List BusAnswer := List.replicate 6 w

/-- Inputs at a time, with the device's answers, and a line that is high from tick `rise` on. -/
def inputs (t : Nat) (answers : List BusAnswer) (rise : Nat) : Env :=
  { time := t, busScript := answers, busDraws := 0, lagScript := [0, 0], lagDraws := 0
    irqScript := [{ start := 0, stop := rise, level := false }, { start := rise, stop := 1000000, level := true }] }

/-- The reset state of a configuration among such inputs. -/
def st (c : Config) (t : Nat) (answers : List BusAnswer := []) (rise : Nat := 1000000) : State :=
  State.atReset c [] (inputs t answers rise) []

/-- The state after a word (the state itself when the step does not go on). -/
def after (word : Command) (s : State) : State :=
  match step (s.present word) with
  | .next t => t
  | .fault _ => s
  | .refused _ => s

/-- What a word answers. -/
def ans (word : Command) (s : State) : Option (Status × Word) :=
  (after word s).resp.map fun a => (a.status, a.result)

/-- The frames G, B and Wr of 95_test_vectors.md section 4, on the wire. -/
def g : List Byte := [0x81, 0x50, 0x01, 0x4C, 0x02, 0x00, 0x00, 0x00, 0xDD, 0xB3]
def b : List Byte := [0x81, 0x50, 0x01, 0xCC, 0x02, 0x00, 0x00, 0x00, 0xDD, 0xB3]
def wr : List Byte := [0x41, 0x00, 0x00, 0x4C, 0x02, 0x00, 0x00, 0x00, 0x2A, 0x6B]

/-- A state whose handler starts with the given values (95_test_vectors.md section 5). -/
def hst (locked : Bool) (cb : Byte) (lastHop : Word) (now : Nat) (raw : List Byte) : State :=
  let s := st tc now
  { s with
    sync := { s.sync with locked := locked, cb := cb, lastHop := lastHop }
    buf := { s.buf with raw := raw } }

/-- A state whose DecodedFrame is given. -/
def dst (c : Config) (dec : List Byte) : State :=
  let s := st c 0
  { s with buf := { s.buf with dec := dec } }

/-! ### Well-formedness: each check refuses an ill-formed command (30_encoding.md R98) -/

theorem test_tc_wf : tc.wf := by decide
theorem test_tcShort_wf : tcShort.wf := by decide
theorem test_tcTrigger_wf : tcTrigger.wf := by decide
theorem test_wf_rd : Instr.wf tc (.rd 0x11) = false ∧ Instr.wf tc (.rd 0x10) = true := by decide
theorem test_wf_frameLd : Instr.wf tc (.frameLd 10 0) = false ∧ Instr.wf tc (.frameLd 9 0) = true := by decide
theorem test_wf_planFreq : Instr.wf tc (.planFreq 4) = false ∧ Instr.wf tc (.planFreq 3) = true := by decide
theorem test_wf_planHop : Instr.wf tc (.planHop 4) = false ∧ Instr.wf tc (.planHop 3) = true := by decide
theorem test_wf_setFreqI :
    Instr.wf tc (.setFreqI 1024000000) = false ∧ Instr.wf tc (.setFreqI 1023999999) = true := by decide

/-! ### Decoding: a word of every row (30_encoding.md R97; the words are those of the rules' worked examples) -/

theorem test_decode_nop : decode 0x0000000000 = .ok .nop := by decide
theorem test_decode_rd : decode 0x010000000C = .ok (.rd 0x0C) := by decide
theorem test_decode_crcTbl : decode 0x1000000081 = .ok (.crcTbl 0x81) := by decide
theorem test_decode_crcInit : decode 0x110000FFFF = .ok (.crcInit 0xFFFF) := by decide
theorem test_decode_crcByte : decode 0x1200000081 = .ok (.crcByte 0x81) := by decide
theorem test_decode_crcFrame : decode 0x1300000000 = .ok .crcFrame := by decide
theorem test_decode_bitrev : decode 0x200000000A = .ok (.bitrev 0x0A) := by decide
theorem test_decode_frameLd : decode 0x210000034C = .ok (.frameLd 3 0x4C) := by decide
theorem test_decode_frameNorm : decode 0x2200000000 = .ok .frameNorm := by decide
theorem test_decode_decode : decode 0x2300000000 = .ok .decodeFrame := by decide
theorem test_decode_hpktI : decode 0x3000000001 = .ok (.hpktI true) := by decide
theorem test_decode_hpktR : decode 0x3100000000 = .ok .hpktR := by decide
theorem test_decode_planFreq : decode 0x4000000002 = .ok (.planFreq 2) := by decide
theorem test_decode_planHop : decode 0x4100000003 = .ok (.planHop 3) := by decide
theorem test_decode_nextHop : decode 0x4200000000 = .ok .nextHop := by decide
theorem test_decode_syncRegs : decode 0x5000000000 = .ok .syncRegs := by decide
theorem test_decode_setFreqI : decode 0x5135C8DB7B = .ok (.setFreqI 902355835) := by decide
theorem test_decode_setFreqH : decode 0x5200000000 = .ok .setFreqH := by decide
theorem test_decode_receiveI : decode 0x5300000A03 = .ok (.receiveI 2563) := by decide
theorem test_decode_receiveD : decode 0x5400000000 = .ok .receiveD := by decide
theorem test_decode_devReset : decode 0x5500000000 = .ok .devReset := by decide
theorem test_decode_readRssi : decode 0x6000000001 = .ok (.readRssi true) := by decide
theorem test_decode_loopInit : decode 0x7000000000 = .ok .loopInit := by decide
theorem test_decode_loopStep : decode 0x7100000000 = .ok .loopStep := by decide
theorem test_decode_unassigned : decode 0x0200000000 = .error (.unassignedOpcode 0x02) := by decide
theorem test_decode_reserved : decode 0x1100010000 = .error (.reservedBits 0x11) := by decide
theorem test_decode_table_word : decodeTableWord 40 0x210000034C = some (.frameLd 3 0x4C) := by decide

/-! ### One step of each command -/

theorem test_nop : ans 0x0000000000 (st tc 0) = some (.ok, 0) := by decide
/-- Section 4, the reset state under TC. -/
theorem test_rd_dwell : ans 0x0100000005 (st tc 0) = some (.ok, 0xA03) := by decide
/-- 47_host_access.md R266: after the `DECODE` example, `RD 0x0C`. -/
theorem test_rd_value :
    ans 0x010000000C (after 0x2300000000 (dst tc (g.map bitrev8))) = some (.ok, 0x00A03240) := by decide
/-- Section 2. -/
theorem test_crcTbl : ans 0x1000000081 (st tc 0) = some (.ok, 0x81A9) := by decide
theorem test_crcInit : ans 0x110000FFFF (st tc 0) = some (.ok, 0xFFFF) := by decide
theorem test_crcByte : ans 0x120000000A (after 0x1200000081 (st tc 0)) = some (.ok, 0x89E3) := by decide
theorem test_crcFrame_valid : ans 0x1300000000 (dst tc (g.map bitrev8)) = some (.ok, 0x00010000) := by decide
theorem test_crcFrame_corrupt : ans 0x1300000000 (dst tc (b.map bitrev8)) = some (.ok, 0x0000B861) := by decide
/-- Section 3. -/
theorem test_bitrev : ans 0x200000000A (st tc 0) = some (.ok, 0x50) := by decide
theorem test_frameLd : (after 0x210000034C (st tc 0)).rawAt 3 = 0x4C := by decide
theorem test_frameLd_range : ans 0x2100000A00 (st tc 0) = some (.errArg, 0) := by decide
theorem test_frameNorm : (after 0x2200000000 (after 0x210000034C (st tc 0))).decAt 3 = 0x32 := by decide
/-- Section 3, row "10 humidity". -/
theorem test_decode_humidity :
    let v := (after 0x2300000000 (dst tc [0xA1, 0x0A, 0x80, 0x5A, 0x20, 0x77, 0, 0, 0xDF, 0x1E])).rd.val
    (v.num, v.den, v.raw) = (602, 10, 0x5A2077) := by decide
/-- Section 3, the station compare takes the battery bit. -/
theorem test_decode_station : ans 0x2300000000 (dst tc [0x89, 0, 0, 0x32, 0x40, 0, 0, 0, 0x82, 0x79]) = some (.ok, 1) := by
  decide
/-- Section 5, H9: the fifth bad attempt in LOCKED, paced verdict. -/
theorem test_hpktI_resync : ans 0x3000000000 (hst true 4 1000 3563 b) = some (.ok, 0x05) := by decide
/-- Section 5, H4. -/
theorem test_hpktI_good : ans 0x3000000000 (hst false 0 0 1000 g) = some (.ok, 0x1F) := by decide
/-- Section 5: after reset without any load. -/
theorem test_hpktR : ans 0x3100000000 (st tc 50) = some (.ok, 0x08) := by decide
/-- Section 6. -/
theorem test_planFreq : ans 0x4000000002 (st tc 0) = some (.ok, 0x35E1F200) := by decide
theorem test_planHop : ans 0x4100000003 (st tc 0) = some (.ok, 1) := by decide
theorem test_nextHop : ans 0x4200000000 (st tc 0) = some (.ok, 0x35E1F200) := by decide
/-- 44_transceiver.md R214: a mirror that is not RX is pushed with the mode first. -/
theorem test_syncRegs :
    (after 0x5000000000 (st tc 0 push6)).trace =
      [.write 1 4 true, .write 7 0xE4 true, .write 8 0xC0 true, .write 9 0 true, .write 0x19 0x55 true,
       .write 0x1A 0xAA true] := by decide
/-- 44_transceiver.md R215. -/
theorem test_setFreqI : ans 0x5135C8DB7B (st tc 0 push6) = some (.ok, 0xE196C6) := by decide
/-- Section 7: the first hop of the toy plan. -/
theorem test_setFreqH : ans 0x5200000000 (after 0x4200000000 (st tc 0 push6)) = some (.ok, 0xE20000) := by decide
/-- A rise 3 ticks into a wait of 5, RSSI 0x5B, frame G: `(OK, 5B00)` and `raw` is G. -/
theorem test_receiveI_fired :
    let t := after 0x5300000005 (st tc 0 (push6 ++ [r 0x5B] ++ push6 ++ g.map r) 3)
    (t.resp, t.buf.raw, t.env.time) = (some { status := .ok, result := 0x5B00 }, g, 3) := by decide
/-- A timeout of 0 ends at once. -/
theorem test_receiveI_zero : ans 0x5300000000 (st tc 0 (push6 ++ [r 0xB4] ++ push6)) = some (.ok, 0xB401) := by decide
theorem test_receiveD : ans 0x5400000000 (st tcShort 0 (push6 ++ [r 0xC8] ++ push6)) = some (.ok, 0xC801) := by decide
/-- 44_transceiver.md R228: the events before the push. -/
theorem test_devReset :
    (after 0x5500000000 (st tc 0 push6)).trace.take 4 = [.rst true, .delay 1, .rst false, .delay 5] := by decide
/-- Section 8: three polls, then the value. -/
theorem test_readRssi_poll :
    let s := after 0x6000000001 (st tc 0 [w, r 0, r 2, r 0x5B])
    (s.phase, s.resp) = (.pollRssi .readRssi, none) ∧
      step s = .next { s with
        phase := .idle
        resp := some { status := .ok, result := 0x5B }
        drv := { s.drv with rssiRaw := 0x5B }
        env := { s.env with busScript := [] }
        trace := s.trace ++ [.read 0x23 (some 2), .read 0x24 (some 0x5B)] } := by
  exact ⟨by decide, rfl⟩
/-- Section 8: no trigger, one read. -/
theorem test_readRssi : ans 0x6000000000 (st tc 0 [r 0xB4]) = some (.ok, 0xB4) := by decide
/-- 46_receive_loop.md R256. -/
theorem test_loopInit : ans 0x7000000000 (st tc 0 push6) = some (.ok, 0x35E1F200) := by decide
/-- 46_receive_loop.md R257: LOCKED, no edge in the dwell, so it counts and hops. -/
theorem test_loopStep :
    let s := st tcShort 0 (push6 ++ [r 0xC8] ++ push6 ++ push6)
    let t := after 0x7100000000 { s with sync := { s.sync with locked := true, hopIndex := 1 } }
    (t.resp, t.sync.hopChan, t.sync.hopIndex) = (some { status := .ok, result := 0x31 }, 0, 2) := by decide
/-- Section 10: the third write of a push fails. -/
theorem test_bus_error :
    let t := after 0x5135E1F200 (st tc 0 [w, w, x])
    (t.resp, t.flt) =
      (some { status := .errBus, result := 8 }, { fault := true, errAddr := 8, errRw := false }) := by decide
/-- 60_exceptions.md R279: in the fault state a command is refused. -/
theorem test_fault_refuses : ans 0x4200000000 (after 0x5135E1F200 (st tc 0 [w, w, x])) = some (.errFault, 0) := by
  decide
/-- 70_reset_and_hazards.md R310: core reset leaves the fault state. -/
theorem test_core_reset :
    step { after 0x5135E1F200 (st tc 0 [w, w, x]) with rstIn := some 0 } =
      .next { st tc 0 with trace := [.write 1 4 true, .write 7 0xE2 true, .write 8 0 false] } := by rfl

/-- 70_reset_and_hazards.md R310: `rst_n` falls on the second write of a push; the reset that follows answers nothing. -/
theorem test_cut_in_flight :
    Sys2Proof.core.run 3 { st tc 0 push6 with host := [.resetAfter 3, .cmd 0x5000000000] } =
      .next { st tc 0 (push6.drop 1) with trace := [.write 1 4 true, .writeCut 7 0xE4] } := by rfl

/-- 70_reset_and_hazards.md R310: `rst_n` falls after the last event of a command, before its answer; and on a command
without events. -/
theorem test_cut_before_the_answer :
    let u := { st tc 0 [r 0xB4] with host := [.resetAfter 2, .cmd 0x6000000000, .cmdCut 0x1100001234] }
    Sys2Proof.core.run 3 u = .next { st tc 0 with
      host := [.cmdCut 0x1100001234], trace := [.read 0x24 (some 0xB4)] } ∧
    Sys2Proof.core.run 5 u = .next { st tc 0 with trace := [.read 0x24 (some 0xB4)] } := ⟨by rfl, by rfl⟩

/-- 41_bitrev_codec.md R148: wind byte 128 is 3072/17 degrees; 45_rssi.md R248: raw 0xB4 is -90 dBm. -/
theorem test_conversions :
    (after 0x2300000000 (dst tc [0x81, 0x0A, 0x80, 0x32, 0x40])).rd.val.windDegrees = 3072 / 17 ∧
      rssiDbm 0xB4 = -90 := by
  have h : (after 0x2300000000 (dst tc [0x81, 0x0A, 0x80, 0x32, 0x40])).rd.val.wdir.toNat = 128 := by decide
  have h' : (0xB4 : Byte).toNat = 180 := rfl
  exact ⟨by norm_num [ReadingVal.windDegrees, h], by norm_num [rssiDbm, h']⟩

/-- 00_scope.md R6: the reset build has the default trigger 0. -/
theorem test_default_trigger : State.reset.cfg.rxRssiTrigger = false := rfl

/-! ### Witnesses: the hypotheses of the obligations are met, each clause at a boundary value of its range -/

/-- A state that is ready for a command, with the handler LOCKED, the mirror at its reset values and ample answers. -/
def ready (c : Config) (answers : List BusAnswer) (rise : Nat := 1000000) : State :=
  let s := st c 0 answers rise
  { s with sync := { s.sync with locked := true, hopIndex := 3 } }

theorem test_hyp_DecodedWordIsItsEncoding : ∃ i, decode 0x210000034C = .ok i := ⟨_, test_decode_frameLd⟩

theorem test_hyp_WordIsTheCommandOfARow : (.frameLd 3 0x4C : Instr).row ∈ opcodeTable := by decide

theorem test_hyp_StepRunsTheDecodedCommand :
    let s := { st tc 0 with host := [.cmd 0x0100000045] }
    s.phase = .idle ∧ s.rstIn ≠ some 0 ∧ s.host = .cmd 0x0100000045 :: [] ∧ decode 0x0100000045 = .ok (.rd 0x45) := by
  decide

/-- An unassigned opcode, and an assigned one with its lowest reserved bit set. -/
theorem test_hyp_IllegalWordAnswersErrIllegal :
    let s := { st tc 0 with host := [.cmd 0x7200000000] }
    (s.phase = .idle ∧ s.rstIn ≠ some 0 ∧ s.host = .cmd 0x7200000000 :: []) ∧
      (∀ r ∈ opcodeTable, (0x7200000000 : Command) &&& r.mask ≠ r.fixed) ∧
      ∀ r ∈ opcodeTable, (0x2100001000 : Command) &&& r.mask ≠ r.fixed := by decide

/-- Both sides of every range of register numbers under TC: the last number in range and the first out of it. -/
theorem test_hyp_RdReadsTheRegisterMap :
    (∀ n ∈ [0x00, 0x0F, 0x10, 0x20, 0x29, 0x30, 0x39, 0x40, 0x45], registerNumber tc n) ∧
      ∀ n ∈ [0x11, 0x1F, 0x2A, 0x2F, 0x3A, 0x3F, 0x46, 0x80, 0xFF], ¬ registerNumber tc n := by decide

/-- Both sides of every other range of 30_encoding.md R98 under TC. -/
theorem test_hyp_OnlyAnArgumentOutOfRangeAnswersErrArg :
    let s := st tc 0
    s.flt.fault = false ∧ s.resp = none ∧ 9 < tc.frameLen ∧ ¬ 10 < tc.frameLen ∧ 3 < tc.channels ∧
      ¬ 4 < tc.channels ∧ frequencyWord tc 1023999999 < 2 ^ 24 ∧ ¬ frequencyWord tc 1024000000 < 2 ^ 24 ∧
      ∃ t, exec (.frameLd 9 0) s = .next t :=
  ⟨by decide, by decide, by decide, by decide, by decide, by decide, by decide, by decide, _, rfl⟩

/-- A plan whose next carrier is out of range, for the composite commands. -/
theorem test_hyp_loop_range :
    let c := { tc with freq := [902000000, 903000000, 1024000000, 905000000] }
    let s := st c 0
    s.flt.fault = false ∧ ¬ argumentInRange s .loopInit ∧ ¬ argumentInRange s .loopStep ∧
      argumentInRange (st tc 0) .loopInit :=
  ⟨by decide, (by decide : ¬ frequencyWord tc 1024000000 < 2 ^ 24), (by decide : ¬ frequencyWord tc 1024000000 < 2 ^ 24),
    (by decide : frequencyWord tc 904000000 < 2 ^ 24)⟩

theorem test_hyp_Inv : (st tc 0).Inv := ⟨test_tc_wf, by decide⟩

theorem test_hyp_a_step : ∃ t, step (st tc 0) = .next t := ⟨_, rfl⟩

/-- A machine in the fault state, idle, with a command waiting. -/
theorem test_hyp_FaultStateRefusesAndStays :
    let s := { after 0x5135E1F200 (st tc 0 [w, w, x]) with host := [.cmd 0x5000000000] }
    s.flt.fault = true ∧ s.phase = .idle ∧ s.rstIn ≠ some 0 ∧ registerNumber s.cfg 0x0F ∧ ¬ registerNumber s.cfg 0x46 ∧
      Instr.syncRegs ≠ .nop ∧ (∀ r, Instr.syncRegs ≠ .rd r) ∧ ∃ t, step s = .next t :=
  ⟨by decide, by decide, by decide, by decide, by decide, by decide, fun _ h => (by cases h), _, rfl⟩

theorem test_hyp_BusErrorsComeOnlyFromBusCommands :
    ∃ t, exec .crcFrame (st tc 0) = .next t ∧ busCommand .crcFrame = false := ⟨_, rfl, rfl⟩

/-- Every register of 10_state.md R25 to R50 is changed by a command that may write it. -/
theorem test_hyp_RegistersAreWrittenOnlyByTheirWriters :
    let s := st tc 10 (push6 ++ [r 0xB4] ++ push6)
    (after 0x4200000000 s).sync.hopIndex ≠ s.sync.hopIndex ∧ (after 0x3000000001 s).sync.cb ≠ s.sync.cb ∧
      (after 0x3100000000 s).rd ≠ s.rd ∧ (after 0x3000000000 (hst false 0 0 0 g)).rd.valid = true ∧
      (after 0x1300000000 s).chk.crcOk ≠ s.chk.crcOk ∧ (after 0x110000FFFF s).chk.crc ≠ s.chk.crc ∧
      (after 0x210000034C s).buf.raw ≠ s.buf.raw ∧ (after 0x2200000000 (hst false 0 0 0 g)).buf.dec ≠ s.buf.dec ∧
      (after 0x5100000000 s).drv.mir ≠ s.drv.mir ∧ (after 0x5300000000 s).drv.rxTimedOut ≠ s.drv.rxTimedOut ∧
      (after 0x5300000000 s).drv.rssiRaw ≠ s.drv.rssiRaw ∧ (after 0x5000000000 (st tc 0 [x])).flt ≠ s.flt := by decide

theorem test_hyp_devRst_changes :
    ∃ t, exec .devReset { st tc 0 with rstIn := some 1 } = .next t ∧ t.drv.devRst ≠ (st tc 0).drv.devRst :=
  ⟨_, rfl, by decide⟩

theorem test_hyp_CoreResetPutsEveryRegisterBack :
    { after 0x5135E1F200 (st tc 0 [w, w, x]) with rstIn := some 0 }.rstIn = some 0 := by decide

theorem test_hyp_CoreResetCutsTheResetPulse :
    let s := { st tc 0 with rstIn := some 1 }
    s.flt.fault = false ∧ s.rstIn = some 1 := by decide

/-- A push cut in flight, and one cut before its answer; a command word that is cut. -/
theorem test_hyp_CommandCutByResetGivesNoResponse :
    let s := { st tc 0 push6 with rstIn := some 3 }
    let t := { st tc 0 push6 with rstIn := some 12 }
    let u := { st tc 0 with host := [.cmdCut 0x1300000000] }
    (s.cfg.wf ∧ s.rstIn ≠ some 0 ∧ s.flt.fault = false ∧ 3 ≤ 2 * s.cfg.slots ∧ s.env.succeeds s.cfg.slots ∧
      ∃ v, exec .syncRegs s = .next v ∧ v.rstIn = some 0) ∧
    (12 = 2 * t.cfg.slots ∧ ∃ v, exec .syncRegs t = .next v ∧ v.rstIn = some 0) ∧
    u.phase = .idle ∧ u.rstIn ≠ some 0 ∧ u.host = .cmdCut 0x1300000000 :: [] :=
  ⟨⟨test_tc_wf, by decide, by decide, by decide, by decide, _, rfl, by decide⟩, ⟨by decide, _, rfl, by decide⟩, by decide⟩

/-- Both ends of a command: an answer, and a poll that has not ended. -/
theorem test_hyp_EveryCommandAnswersUnlessItPolls :
    (st tc 0).rstIn = none ∧ (after 0x2200000000 (st tc 0)).resp = some { status := .ok, result := 0 } ∧
      (after 0x6000000001 (st tc 0 [w, r 0])).phase = .pollRssi .readRssi := by decide

theorem test_hyp_NopDoesNothing :
    let s := { st tc 0 with host := [.cmd (0x00#8 ++ (0 : Word))] }
    let t := { st tc 0 with host := [.cmd (0x00#8 ++ (1 : Word))] }
    (s.phase = .idle ∧ s.rstIn ≠ some 0 ∧ s.host = .cmd (0x00#8 ++ (0 : Word)) :: []) ∧
      t.phase = .idle ∧ t.rstIn ≠ some 0 ∧ t.host = .cmd (0x00#8 ++ (1 : Word)) :: [] := by decide

/-- Every command that only asks for a CORE out of fault, or that its arrays have their lengths, or for the invariant. -/
theorem test_hyp_a_clear_state : (st tc 0).flt.fault = false ∧ Memory.wf (st tc 0) ∧ (st tc 0).clear ∧
    (st tc 0).cfg.poly = 0x1021 := by decide

/-- Section X1: the payload, its CRC high byte first, and the whole at the residue. -/
theorem test_hyp_OnlyItsOwnCrcMakesAPayloadValid :
    (0xAC#8 ++ 0x1F#8 = checksum tc 0 [0x81, 0x0A, 0x80, 0x32, 0x40, 0x00]) ∧ tc.poly = 0x1021 ∧
      checksum tc 0 ([0x81, 0x0A, 0x80, 0x32, 0x40, 0x00] ++ [0xAC, 0x1F]) = 0 := by decide

theorem test_hyp_ChecksumIsLinear : ([1, 2, 3] : List Byte).length = ([4, 5, 6] : List Byte).length := by decide

theorem test_hyp_OneFlippedBitIsDetected : tc.poly = 0x1021 ∧ 9 < g.length ∧ 7 < 8 ∧ 0 < g.length ∧ 0 < 8 := by decide

/-- The last index in range and the first out of it, in a state with arrays of the right length. -/
theorem test_hyp_FrameLdWritesOneRawByte :
    let s := st tc 0
    Memory.wf s ∧ s.flt.fault = false ∧ (9 : BitVec 4).toNat < s.cfg.frameLen ∧
      s.cfg.frameLen ≤ (10 : BitVec 4).toNat := by decide

/-- The frame Wr is for another station, G is for this one. -/
theorem test_hyp_DecodeReadsTheFields :
    let s := dst tc (wr.map bitrev8)
    let t := dst tc (g.map bitrev8)
    s.flt.fault = false ∧ (s.decAt 0).toNat % 16 ≠ s.cfg.stationNumber % 16 ∧
      t.flt.fault = false ∧ (t.decAt 0).toNat % 16 = t.cfg.stationNumber % 16 := by decide

theorem test_hyp_StoredRegistersConvertExactly :
    let s := dst tc (g.map bitrev8)
    let t := st tc 0 [r 0xB4]
    (s.cfg.wf ∧ s.flt.fault = false ∧ (s.decAt 0).toNat % 16 = s.cfg.stationNumber % 16) ∧
      (s.decAt 2 = 128 ∧ (dst tc [1, 0, 255]).decAt 2 = 255 ∧ (dst tc [1, 0, 0]).decAt 2 = 0) ∧
      t.clear ∧ t.env.succeeds 1 := ⟨⟨test_tc_wf, by decide, by decide⟩, by decide, by decide, by decide⟩

theorem test_hyp_DecodeIgnoresTheBytesAfterFive :
    ∀ i < 6, ([0x81, 0x0A, 0x80, 0x32, 0x40, 0x00] : List Byte).getD i 0 = (dst tc (g.map bitrev8)).decAt i := by decide

theorem test_hyp_handler : (hst true 4 1000 3563 b).RegInv ∧ (hst true 4 1000 3563 b).flt.fault = false :=
  ⟨⟨test_tc_wf, by decide⟩, by decide⟩

theorem test_hyp_ValidReadingMeansVerifiedAndAddressed :
    let s := hst false 0 0 1000 g
    ∃ t, s.cfg.wf ∧ handlerCommand (.hpktI false) = true ∧ s.clear ∧ s.resp = none ∧ exec (.hpktI false) s = .next t ∧
      (∃ v, t.resp = some { status := .ok, result := v }) ∧ t.rd.valid = true :=
  ⟨_, test_tc_wf, by decide, by decide, by decide, rfl, ⟨0x1F, by decide⟩, by decide⟩

/-- The threshold itself, and one below it with the good frame. -/
theorem test_hyp_ThresholdTimeoutsLoseTheLock :
    let s := hst true 0 0 100 g
    s.RegInv ∧ s.flt.fault = false ∧ s.sync.locked = true ∧ s.sync.cb = 0 ∧ 5 ≤ s.cfg.badThreshold ∧
      5 = s.cfg.badThreshold ∧ 4 < s.cfg.badThreshold ∧ handlerPath s false = .good :=
  ⟨⟨test_tc_wf, by decide⟩, by decide, by decide, by decide, by decide, by decide, by decide, by decide⟩

/-- Rows H3 and H2 of section 5: at the dwell, and one tick before it. -/
theorem test_hyp_SearchingHopsArePaced :
    let s := hst false 0 0 2563 g
    let s' := hst false 0 0 2562 g
    s.flt.fault = false ∧ s.sync.lastHop = BitVec.ofNat 32 0 ∧ 0 ≤ s.env.time ∧
      (∃ t, exec (.hpktI true) s = .next t ∧ t.sync.locked = false ∧ t.sync.shouldHop = true ∧
        t.env.time < 0 + 2 ^ 32 ∧ 0 + s.cfg.dwell.toNat ≤ t.env.time) ∧
      ∃ t, exec (.hpktI true) s' = .next t ∧ t.sync.locked = false ∧ t.sync.shouldHop = false :=
  ⟨by decide, by decide, by decide, ⟨_, rfl, by decide, by decide, by decide, by decide⟩,
    _, rfl, by decide, by decide⟩

/-- A `LOOP.STEP` that times out while SEARCHING, the wait being the dwell and `last_hop` 0: it says to hop. And one
tick of dwell short, with a corrupt frame, `HPKT.R` does not. -/
theorem test_hyp_EverySearchingVerdictIsPaced :
    let s := st tcShort 0 (push6 ++ [r 0xC8] ++ push6 ++ push6)
    let s' := hst false 0 0 2562 b
    (s.flt.fault = false ∧ s.resp = none ∧ s.sync.lastHop = BitVec.ofNat 32 0 ∧ 0 ≤ s.env.time ∧
      ∃ t, exec .loopStep s = .next t ∧ (∃ v, t.resp = some { status := .ok, result := v }) ∧
        t.sync.locked = false ∧ t.sync.shouldHop = true ∧ t.sync.hpOutcome ≠ .wrongStation ∧
        t.env.time < 0 + 2 ^ 32 ∧ 0 + s.cfg.dwell.toNat ≤ t.env.time) ∧
    ∃ t, exec .hpktR s' = .next t ∧ t.sync.locked = false ∧ t.sync.shouldHop = false ∧
      t.sync.hpOutcome ≠ .wrongStation :=
  ⟨⟨by decide, by decide, by decide, by decide, _, rfl, ⟨0x21, by decide⟩, by decide, by decide, by decide, by decide,
    by decide⟩, _, rfl, by decide, by decide, by decide⟩

theorem test_hyp_PlanReadsAnswerTheTables :
    let s := st tc 0
    s.cfg.wf ∧ s.flt.fault = false ∧ (3 : Byte).toNat < s.cfg.channels ∧ s.cfg.channels ≤ (4 : Byte).toNat :=
  ⟨test_tc_wf, by decide, by decide, by decide⟩

/-- The last hop position, from which the index wraps. -/
theorem test_hyp_hops : (ready tc []).RegInv ∧ (ready tc []).flt.fault = false := ⟨⟨test_tc_wf, by decide⟩, by decide⟩

theorem test_hyp_SyncRegsPushesTheMirror :
    let s := st tc 0 push6
    s.cfg.wf ∧ s.clear ∧ s.env.succeeds s.cfg.slots := ⟨test_tc_wf, by decide, by decide⟩

/-- A mirror in RX: every other slot before the mode byte. -/
theorem test_hyp_PushNeverEntersRxWithStaleSettings :
    let s := { st tc 0 push6 with drv := { (st tc 0).drv with mir := [0x10, 0xE4, 0xC0, 0, 0x55, 0xAA] } }
    s.RegInv ∧ s.flt.fault = false ∧ ∃ t, exec .syncRegs s = .next t ∧
      t.trace = s.trace ++ ([.write 7 0xE4 true, .write 8 0xC0 true, .write 9 0 true, .write 0x19 0x55 true,
        .write 0x1A 0xAA true] ++ .write (s.cfg.addrAt 0) 0x10 true :: []) :=
  ⟨⟨test_tc_wf, by decide⟩, by decide, _, rfl, by decide⟩

theorem test_hyp_SetFreqProgramsTheCarrier :
    let s := ready tc push6
    s.RegInv ∧ s.clear ∧ s.env.succeeds s.cfg.slots ∧ frequencyWord s.cfg 1023999999 < 2 ^ 24 ∧
      frequencyWord s.cfg s.sync.hopFreq < 2 ^ 24 :=
  ⟨⟨test_tc_wf, by decide⟩, by decide, by decide, by decide, by decide⟩

/-- The first write of a push fails; the last one does. -/
theorem test_hyp_FailedPushStopsAtTheFailedWrite :
    let s := st tc 0 [x]
    let t := st tc 0 [w, w, w, w, w, x]
    (s.RegInv ∧ s.clear ∧ frequencyWord s.cfg 62 < 2 ^ 24 ∧ 0 < s.cfg.slots ∧ s.env.succeeds 0 ∧
      (s.env.afterAnswers 0).nextAnswer.ok = false) ∧
    t.RegInv ∧ t.clear ∧ 5 < t.cfg.slots ∧ t.env.succeeds 5 ∧ (t.env.afterAnswers 5).nextAnswer.ok = false :=
  ⟨⟨⟨test_tc_wf, by decide⟩, by decide, by decide, by decide, by decide, by decide⟩,
    ⟨test_tc_wf, by decide⟩, by decide, by decide, by decide, by decide⟩

/-- A receive that goes through, without the trigger and with it. -/
theorem test_hyp_ReceiveMakesOneAttempt :
    receiveGoesThrough (ready tcShort (push6 ++ [r 0x5B] ++ push6 ++ g.map r) 2) 0 ∧
      receiveGoesThrough (ready tcTrigger (push6 ++ [w, r 2, r 0x5B] ++ push6 ++ g.map r) 2) 0 :=
  ⟨⟨⟨test_tcShort_wf, by decide⟩, by decide, by decide, by decide⟩,
    ⟨test_tcTrigger_wf, by decide⟩, by decide, by decide, by decide⟩

/-- The line rises at the second tick of a wait of two; a wait of one times out. -/
theorem test_hyp_waitEnds :
    waitEnds (inputs 0 [] 2) 0 2 2 true ∧ waitEnds (inputs 0 [] 2) 0 1 1 false := by
  refine ⟨.inl ⟨rfl, by decide, by decide, by decide, fun j h1 h2 => ?_⟩, .inr ⟨rfl, rfl, fun j h1 h2 => ?_⟩⟩
  · obtain rfl : j = 1 := by omega
    decide
  · obtain rfl : j = 1 := by omega
    decide

/-- The first payload read fails; the last one does. -/
theorem test_hyp_FailedPayloadReadKeepsTheBytesBeforeIt :
    let s := st tcShort 0 (push6 ++ [r 0x5B] ++ push6 ++ [x]) 2
    let t := st tcShort 0 (push6 ++ [r 0x5B] ++ push6 ++ (g.take 9).map r ++ [x]) 2
    (s.RegInv ∧ s.clear ∧ 0 < s.cfg.frameLen ∧ s.cfg.rxRssiTrigger = false ∧ (s.env.afterAnswers 6).time = 0 ∧
      s.env.succeeds (6 + 1 + 6 + 0) ∧ (s.env.afterAnswers (6 + 1 + 6 + 0)).nextAnswer.ok = false) ∧
    t.RegInv ∧ t.clear ∧ 9 < t.cfg.frameLen ∧ (t.env.afterAnswers 6).time = 0 ∧ t.env.succeeds (6 + 1 + 6 + 9) ∧
      (t.env.afterAnswers (6 + 1 + 6 + 9)).nextAnswer.ok = false :=
  ⟨⟨⟨test_tcShort_wf, by decide⟩, by decide, by decide, by decide, by decide, by decide, by decide⟩,
    ⟨test_tcShort_wf, by decide⟩, by decide, by decide, by decide, by decide, by decide⟩

/-- The first write fails; the last one does. -/
theorem test_hyp_FailedPushEndsSyncRegsDevResetSetFreqHAndLoopInit :
    let s := (st tc 0 [x]).accept []
    let t := (st tc 0 [w, w, w, w, w, x]).accept []
    (s.RegInv ∧ s.clear ∧ 0 < s.cfg.slots ∧ failsAt s.env 0 ∧ s.drv.devRst = false ∧
      frequencyWord s.cfg s.sync.hopFreq < 2 ^ 24 ∧ frequencyWord s.cfg (afterHop s).sync.hopFreq < 2 ^ 24) ∧
    t.RegInv ∧ t.clear ∧ 5 < t.cfg.slots ∧ failsAt t.env 5 :=
  ⟨⟨⟨test_tc_wf, by decide⟩, by decide, by decide, by decide, by decide, by decide, by decide⟩,
    ⟨test_tc_wf, by decide⟩, by decide, by decide, by decide⟩

/-- A failure in each part of a receive: the first push, the sample (its value read after the trigger), the second
push, the last payload read after an edge at tick 2. -/
theorem test_hyp_FailedReceiveStopsAtItsFailedTransaction :
    let s := (st tcShort 0 (push6.take 5 ++ [x])).accept []
    let t := (st tcTrigger 0 (push6 ++ [w, r 2, x]) 2).accept []
    let u := (st tcShort 0 (push6 ++ [r 0x5B] ++ [x]) 2).accept []
    let v := (st tcShort 0 (push6 ++ [r 0x5B] ++ push6 ++ (g.take 9).map r ++ [x]) 2).accept []
    (s.RegInv ∧ s.clear ∧ failsAt s.env 5 ∧ argumentInRange s .loopStep) ∧
    (t.RegInv ∧ t.clear ∧ t.env.succeeds 6 ∧ failsAt (afterWait t 2 true false).env 2 ∧
      (afterWait t 2 true false).env.answerAt 1 &&& t.cfg.rssiDone ≠ 0) ∧
    (u.RegInv ∧ u.env.succeeds 6 ∧ (afterWait u 2 true false).env.succeeds 1 ∧
      failsAt (afterSample (afterWait u 2 true false)).env 0) ∧
    v.RegInv ∧ (afterSample (afterWait v 2 true false)).env.succeeds 6 ∧
      failsAt (pushed (modeFirst v.cfg) 6 (afterSample (afterWait v 2 true false))).env 9 ∧
      waitEnds v.env (v.env.afterAnswers 6).time 2 2 true :=
  ⟨⟨⟨test_tcShort_wf, by decide⟩, by decide, by decide,
      (by decide : frequencyWord tcShort 904000000 < 2 ^ 24)⟩,
    ⟨⟨test_tcTrigger_wf, by decide⟩, by decide, by decide, by decide, by decide⟩,
    ⟨⟨test_tcShort_wf, by decide⟩, by decide, by decide, by decide⟩,
    ⟨test_tcShort_wf, by decide⟩, by decide, by decide, test_hyp_waitEnds.1⟩

theorem test_hyp_DevResetPulsesTheLineAndPushes :
    let s := (st tc 0 push6).accept []
    s.RegInv ∧ s.drv.devRst = false ∧ s.clear ∧ s.env.succeeds s.cfg.slots :=
  ⟨⟨test_tc_wf, by decide⟩, by decide, by decide, by decide⟩

theorem test_hyp_ReadRssiStoresTheRawByte :
    let s := st tc 0 [w, r 2, r 0x5B]
    s.clear ∧ s.env.succeeds 1 ∧ s.env.succeeds 3 ∧ s.env.answerAt 1 &&& s.cfg.rssiDone ≠ 0 := by decide

/-- A failure at each transaction of a sample, and at each of the two reads of a poll that goes on. -/
theorem test_hyp_FailedRssiTransactionKeepsTheOldByte :
    (st tc 0 [x]).clear ∧ failsAt (st tc 0 [x]).env 0 ∧ failsAt (st tc 0 [w, x]).env 1 ∧
      failsAt (st tc 0 [w, r 2, x]).env 2 ∧ (st tc 0 [w, r 2, x]).env.answerAt 1 &&& tc.rssiDone ≠ 0 ∧
      let p := { st tc 0 [r 2, x] with phase := .pollRssi .readRssi }
      p.phase = .pollRssi .readRssi ∧ p.clear ∧ failsAt p.env 1 ∧ p.env.answerAt 0 &&& p.cfg.rssiDone ≠ 0 := by decide

/-- Two polls without a ready bit. -/
theorem test_hyp_RssiPollGoesOnUntilTheReadyBit :
    let s := { st tc 0 [r 0, r 1] with phase := .pollRssi .readRssi }
    s.phase = .pollRssi .readRssi ∧ s.rstIn = none ∧ s.resp = none ∧ s.env.succeeds 2 ∧
      ∀ a ∈ s.env.answers 2, a.data &&& s.cfg.rssiDone = 0 := by decide

/-- A state suspended in the poll of a command, whose next answer has the ready bit. -/
def polled (k : Resume) : State :=
  { st tcTrigger 0 ([r 2, r 0x5B] ++ push6 ++ g.map r ++ push6) with phase := .pollRssi k }

/-- A ready bit, in the poll of each command that polls. -/
theorem test_hyp_ReadyBitEndsThePollAndTheCommandGoesOn :
    ((polled .readRssi).Inv ∧ (polled (.receive true)).Inv ∧ (polled (.loopStep true)).Inv) ∧
      ∀ k ∈ [Resume.readRssi, .receive true, .loopStep true],
        (polled k).rstIn = none ∧ (polled k).env.answerAt 0 &&& (polled k).cfg.rssiDone ≠ 0 ∧
          (polled k).env.succeeds (2 + (polled k).cfg.slots + (polled k).cfg.frameLen + (polled k).cfg.slots) ∧
          (polled k).phase = .pollRssi k ∧
          frequencyWord (polled k).cfg (afterHop (polled k)).sync.hopFreq < 2 ^ 24 :=
  ⟨⟨⟨test_tcTrigger_wf, by decide⟩, ⟨test_tcTrigger_wf, by decide⟩, ⟨test_tcTrigger_wf, by decide⟩⟩, by decide⟩

/-- A first poll without a ready bit: in `READ_RSSI 1`, and in a receive whose line rises at tick 2. -/
theorem test_hyp_UnreadyFirstPollLeavesTheCommandInItsPoll :
    let s := st tc 0 [w, r 0]
    let t := (st tcTrigger 0 (push6 ++ [w, r 0]) 2).accept []
    (s.clear ∧ s.env.succeeds 2 ∧ s.env.answerAt 1 &&& s.cfg.rssiDone = 0) ∧
      t.RegInv ∧ t.clear ∧ argumentInRange t .loopStep ∧ t.cfg.rxRssiTrigger = true ∧ t.env.succeeds (t.cfg.slots + 2) ∧
      t.env.answerAt (t.cfg.slots + 1) &&& t.cfg.rssiDone = 0 ∧ receiveTimeout t .loopStep = some 3 ∧
      receiveTimeout t (.receiveI 0) = some 0 ∧ receiveTimeout t .receiveD = some 3 :=
  ⟨by decide, ⟨test_tcTrigger_wf, by decide⟩, by decide, (by decide : frequencyWord tcTrigger 904000000 < 2 ^ 24),
    by decide, by decide, by decide, by decide, by decide, by decide⟩

/-- A later turn of the poll of LOOP.STEP that ends it with a good frame: it writes the Reading, and answers OK. -/
theorem test_hyp_turnOf_good :
    ∃ t, turnOf .loopStep (polled (.loopStep true)) t ∧ (polled (.loopStep true)).clear ∧
      (polled (.loopStep true)).resp = none ∧ (∃ v, t.resp = some { status := .ok, result := v }) ∧
      t.rd.valid = true ∧ t.rd ≠ (polled (.loopStep true)).rd :=
  ⟨_, .inr ⟨⟨true, _, rfl, rfl⟩, by decide, rfl⟩, by decide, by decide, ⟨0x1F, by decide⟩, by decide, by decide⟩

/-- A later turn of the poll of LOOP.STEP that timed out while SEARCHING: no dwell has passed, it does not hop. -/
theorem test_hyp_turnOf_searching :
    ∃ t, turnOf .loopStep (polled (.loopStep false)) t ∧
      (polled (.loopStep false)).sync.lastHop = BitVec.ofNat 32 0 ∧
      (∃ v, t.resp = some { status := .ok, result := v }) ∧ t.sync.locked = false ∧ t.sync.shouldHop = false ∧
      t.sync.hpOutcome ≠ .wrongStation :=
  ⟨_, .inr ⟨⟨false, _, rfl, rfl⟩, by decide, rfl⟩, by decide, ⟨0x20, by decide⟩, by decide, by decide, by decide⟩

/-- `rst_n` falls on a later poll read in flight: no response; with `rst_n` high the same turn stays in the poll. -/
theorem test_hyp_a_later_poll_turn :
    let s := { st tc 0 [r 0] with phase := .pollRssi .readRssi, rstIn := some 1 }
    let t := { st tc 0 [r 0] with phase := .pollRssi .readRssi }
    (s.rstIn ≠ some 0 ∧ ∃ u, step s = .next u ∧ u.rstIn = some 0 ∧ u.trace = [.readCut 0x23]) ∧
      t.rstIn = none ∧ ∃ u, step t = .next u ∧ u.phase = .pollRssi .readRssi :=
  ⟨⟨by decide, _, rfl, by decide, by decide⟩, by decide, _, rfl, by decide⟩

/-- A state suspended in the poll of `k`, LOCKED, whose device answers as given after the ready bit and the value. -/
def polledWith (k : Resume) (answers : List BusAnswer) : State :=
  { ready tcTrigger ([r 2, r 0x5B] ++ answers) with phase := .pollRssi k }

/-- Failures after a later poll turn: a write of the push into standby, the last payload read, a write of the tune. -/
theorem test_hyp_failures_after_a_later_poll_turn :
    let s := polledWith (.receive true) [w, x]
    let t := polledWith (.loopStep true) (push6 ++ (g.take 9).map r ++ [x])
    let u := polledWith (.loopStep false) (push6 ++ [x])
    let v (q : State) := withMirror (mirrorInMode q q.cfg.modeStandby) (afterReady q)
    let h := afterHandle true (afterPolledReceive u false)
    (s.RegInv ∧ s.clear ∧ s.phase = .pollRssi (.receive true) ∧ s.env.succeeds 2 ∧
      s.env.answerAt 0 &&& s.cfg.rssiDone ≠ 0 ∧ failsAt (v s).env 1) ∧
    (t.RegInv ∧ t.phase = .pollRssi (.loopStep true) ∧ (v t).env.succeeds 6 ∧
      failsAt (pushed (modeFirst t.cfg) 6 (v t)).env 9) ∧
    u.RegInv ∧ u.clear ∧ frequencyWord u.cfg (afterHop u).sync.hopFreq < 2 ^ 24 ∧
      u.env.succeeds (2 + u.cfg.slots + 0) ∧ h.sync.shouldHop = true ∧ failsAt h.env 0 :=
  ⟨⟨⟨test_tcTrigger_wf, by decide⟩, by decide, by decide, by decide, by decide, by decide⟩,
    ⟨⟨test_tcTrigger_wf, by decide⟩, by decide, by decide, by decide⟩,
    ⟨test_tcTrigger_wf, by decide⟩, by decide, by decide, by decide, by decide, by decide⟩

theorem test_hyp_LoopInitHopsAndTunes :
    let s := ready tc push6
    s.RegInv ∧ s.clear ∧ s.env.succeeds s.cfg.slots ∧ frequencyWord s.cfg (afterHop s).sync.hopFreq < 2 ^ 24 :=
  ⟨⟨test_tc_wf, by decide⟩, by decide, by decide, by decide⟩

/-- A turn of the loop that goes through, without the trigger and with it; the two obligations on LOOP.STEP have the
same premises. -/
theorem test_hyp_LoopStepReceivesDecidesAndHops :
    let s := ready tcShort (push6 ++ [r 0x5B] ++ push6 ++ g.map r ++ push6) 2
    let t := ready tcTrigger (push6 ++ [w, r 2, r 0x5B] ++ push6 ++ g.map r ++ push6) 2
    (receiveGoesThrough s s.cfg.slots ∧ frequencyWord s.cfg (afterHop s).sync.hopFreq < 2 ^ 24) ∧
      receiveGoesThrough t t.cfg.slots ∧ frequencyWord t.cfg (afterHop t).sync.hopFreq < 2 ^ 24 :=
  ⟨⟨⟨⟨test_tcShort_wf, by decide⟩, by decide, by decide, by decide⟩, by decide⟩,
    ⟨⟨test_tcTrigger_wf, by decide⟩, by decide, by decide, by decide⟩, by decide⟩

/-- The tune of a LOCKED machine fails at its first write, after a wait of a dwell that timed out. -/
theorem test_hyp_FailedTuneOfLoopStepKeepsTheDecision :
    let s := ready tcShort (push6 ++ [r 0x5B] ++ push6 ++ [x])
    let h := afterHandle true (afterReceive s 3 false false)
    s.RegInv ∧ s.clear ∧ frequencyWord s.cfg (afterHop s).sync.hopFreq < 2 ^ 24 ∧ s.cfg.rxRssiTrigger = false ∧
      s.env.succeeds (s.cfg.slots + sampleSteps s.cfg.rxRssiTrigger + s.cfg.slots) ∧
      (waitEnd (s.env.afterAnswers s.cfg.slots) s.cfg.dwell.toNat).fired = false ∧
      h.sync.shouldHop = true ∧ failsAt h.env 0 :=
  ⟨⟨test_tcShort_wf, by decide⟩, by decide, by decide, by decide, by decide, by decide, by decide, by decide⟩

end Sys2Proof.Tests
end

/-! The order of states that no step goes down (00_scope.md R14, 20_memory.md R67, 10_state.md R47): the same
configuration, a trace that has grown, a true time that has not gone back. Every update of a bus command keeps it
(`advances_closed`), so do the commands (`exec_goesPast`) and what a step begins with (`fetch_advances`). -/

namespace Sys2Proof.Machine

/-! ### The order -/

/-- `t` can come after `s`: the configuration is the same, the trace has grown, true time has not gone back. -/
def Advances (s t : State) : Prop := t.cfg = s.cfg ∧ s.trace <+: t.trace ∧ s.env.time ≤ t.env.time

theorem Advances.refl (s : State) : Advances s s := ⟨rfl, List.prefix_rfl, le_refl _⟩

theorem Advances.trans {s t u : State} (hst : Advances s t) (htu : Advances t u) : Advances s u := by
  obtain ⟨hc, htr, hti⟩ := hst
  obtain ⟨hc', htr', hti'⟩ := htu
  exact ⟨hc'.trans hc, htr.trans htr', hti.trans hti'⟩

/-- Changing registers, inputs of the host or the response, but neither configuration, trace nor time. -/
theorem Advances.of_eq {s t u : State} (h : Advances s t) (hcfg : u.cfg = t.cfg) (htrace : u.trace = t.trace)
    (henv : u.env = t.env) : Advances s u := by
  obtain ⟨hc, htr, hti⟩ := h
  exact ⟨hcfg.trans hc, htrace ▸ htr, henv ▸ hti⟩

/-- Moving the environment's inputs on, without an event. -/
theorem Advances.of_time_le {s t u : State} (h : Advances s t) (hcfg : u.cfg = t.cfg) (htrace : u.trace = t.trace)
    (htime : t.env.time ≤ u.env.time) : Advances s u := by
  obtain ⟨hc, htr, hti⟩ := h
  exact ⟨hcfg.trans hc, htrace ▸ htr, hti.trans htime⟩

theorem Advances.passEvent {s t : State} (h : Advances s t) (ev : Event) {e : Env} (he : t.env.time ≤ e.time) :
    Advances s (t.passEvent ev e) := by
  obtain ⟨hc, htr, hti⟩ := h
  exact ⟨hc, htr.trans (List.prefix_append _ _), hti.trans he⟩

theorem Advances.sampling {s t : State} (h : Advances s t) : Advances s t.sampling :=
  h.of_time_le rfl rfl (time_le_afterLag t.env)

theorem Advances.handle {s t : State} (h : Advances s t) (b : Bool) : Advances s (handle b t) :=
  h.of_time_le (by simp) (by simp) (by simpa using time_le_afterLag t.env)

theorem Advances.nextHop {s t : State} (h : Advances s t) : Advances s (nextHop t) :=
  h.sampling.of_eq rfl rfl rfl

/-- Whatever a bus command does, and wherever it stops, it is past the state `s`. -/
theorem advances_closed (s : State) : Closed (Advances s) (Advances s) where
  event _ ev _ he h := h.passEvent ev he
  issue _ h := h.of_eq rfl rfl rfl
  phase _ _ h := h.of_eq rfl rfl rfl
  irqPrev _ _ h := h.of_eq rfl rfl rfl
  mode _ _ h := h.of_eq rfl rfl rfl
  tune _ _ h := h.of_eq rfl rfl rfl
  rssi _ _ h := h.of_eq rfl rfl rfl
  timedOut _ _ h := h.of_eq rfl rfl rfl
  raw _ _ _ h := h.of_eq rfl rfl rfl
  handle _ b h := h.handle b
  hop _ h := h.nextHop
  cut _ h _ := h
  fail _ _ _ h _ := h.of_eq rfl rfl rfl
  poll _ _ h _ := h

/-! ### Commands -/

theorem Advances.respond {s t : State} (h : Advances s t) (st : Status) (v : Word) : Advances s (respond st v t) :=
  h.of_eq rfl rfl rfl

/-- The outcome of a command goes on, in a state past `s`. -/
def GoesPast (s : State) (o : Host.Outcome State Fault Refusal) : Prop := ∃ t, o = .next t ∧ Advances s t

/-- A judged command: refused, or run. -/
theorem judge_goesPast {s run : State} {argOk : Bool} (h : Advances s run) : GoesPast s (.next (judge s argOk run)) :=
  ⟨_, rfl, judge_cases ((Advances.refl s).respond _ _) ((Advances.refl s).respond _ _) fun _ _ => h⟩

theorem judgeInFault_goesPast {s run : State} {argOk : Bool} (h : Advances s run) :
    GoesPast s (.next (judgeInFault s argOk run)) := by
  refine ⟨_, rfl, ?_⟩
  unfold judgeInFault
  split
  · exact h
  · exact (Advances.refl s).respond _ _

/-- A command whose pieces stay past `s` leaves a state past `s`, answered or not. -/
theorem advances_finish {s : State} {r : Res Word} (h : r.Sat (fun _ => Advances s) (Advances s)) :
    Advances s r.finish :=
  h.finish (fun _ _ ht _ => ht) fun v _ ht _ => ht.respond .ok v

theorem advances_readHostReg (r : Byte) (s : State) : Advances s (readHostReg r s) := by
  unfold readHostReg
  split
  · exact (Advances.refl s).sampling.respond _ _
  · exact (Advances.refl s).respond _ _

theorem advances_decodeReading (s : State) : Advances s (decodeReading s) := by
  unfold decodeReading
  split <;> exact (Advances.refl s).of_eq rfl rfl rfl

theorem advances_deviceReset (s : State) : (deviceReset s).Sat (fun _ => Advances s) (Advances s) :=
  (advances_closed s).deviceReset (H := Advances s)
    (fun _ h => (h.passEvent (.rst true) (le_refl _)).of_eq rfl rfl rfl)
    (fun _ ev _ he h => h.passEvent ev he)
    (fun _ h _ => h)
    (fun _ h => (h.passEvent (.rst false) (le_refl _)).of_eq rfl rfl rfl)
    (.refl s)

/-- A command whose pieces are `r` and then an answer that changes nothing more. -/
theorem advances_finish_answer {α : Type} {s : State} {r : Res α} {v : α → State → Word}
    (h : r.Sat (fun _ => Advances s) (Advances s)) : Advances s (r.andThen fun a t => .ok (v a t) t).finish :=
  advances_finish (h.andThen fun _ _ ht => ht)

theorem advances_readRssi (trigger : Bool) (s : State) :
    Advances s ((sampleRssi trigger .readRssi s).andThen storeRssi).finish :=
  advances_finish <|
    ((advances_closed s).sampleRssi trigger .readRssi (.refl s)).andThen fun v t ht => (advances_closed s).rssi t v ht

theorem advances_loopTurn (s : State) : Advances s (loopTurn s).finish :=
  advances_finish <|
    ((advances_closed s).receive s.cfg.dwell.toNat .loopStep (.refl s)).andThen fun _ _ ht =>
      (advances_closed s).loopDecide ht

/-- Every command has a next state, and that state is past the one it began in. -/
theorem exec_goesPast (i : Instr) (s : State) : GoesPast s (exec i s) := by
  have h := Advances.refl s
  have C := advances_closed s
  cases i with
  | nop => exact judgeInFault_goesPast (h.respond _ _)
  | rd r => exact judgeInFault_goesPast (advances_readHostReg r s)
  | crcTbl b => exact judge_goesPast (h.respond _ _)
  | crcInit c => exact judge_goesPast (h.of_eq rfl rfl rfl)
  | crcByte b => exact judge_goesPast (h.of_eq rfl rfl rfl)
  | crcFrame => exact judge_goesPast (h.of_eq rfl rfl rfl)
  | bitrev b => exact judge_goesPast (h.respond _ _)
  | frameLd x b => exact judge_goesPast (h.of_eq rfl rfl rfl)
  | frameNorm => exact judge_goesPast (h.of_eq rfl rfl rfl)
  | decodeFrame => exact judge_goesPast ((advances_decodeReading s).respond _ _)
  | hpktI f => exact judge_goesPast ((h.handle f).respond _ _)
  | hpktR => exact judge_goesPast ((h.handle s.drv.rxTimedOut).respond _ _)
  | planFreq b => exact judge_goesPast (h.respond _ _)
  | planHop b => exact judge_goesPast (h.respond _ _)
  | nextHop => exact judge_goesPast (h.nextHop.respond _ _)
  | syncRegs => exact judge_goesPast (advances_finish_answer (C.push h))
  | setFreqI w => exact judge_goesPast (advances_finish_answer (C.setFrequency w h))
  | setFreqH => exact judge_goesPast (advances_finish_answer (C.setFrequency s.sync.hopFreq h))
  | receiveI w => exact judge_goesPast (advances_finish_answer (C.receive w.toNat .receive h))
  | receiveD => exact judge_goesPast (advances_finish_answer (C.receive s.cfg.dwell.toNat .receive h))
  | devReset => exact judge_goesPast (advances_finish_answer (advances_deviceReset s))
  | readRssi f => exact judge_goesPast (advances_readRssi f s)
  | loopInit => exact judge_goesPast (advances_finish_answer (C.hopAndTune h))
  | loopStep => exact judge_goesPast (advances_loopTurn s)

/-- A turn of the poll, and the rest of its command. -/
theorem resume_advances (k : Resume) {s t : State} (h : Advances s t) : Advances s (resume k t) :=
  (advances_closed s).resume (fun _ v hu _ => hu.respond .ok v) k h

/-! ### The step -/

/-- What holds of the state a step begins a command in, or settles in. -/
def Fetched.Sat (f : Fetched) (Q : State → Prop) : Prop :=
  match f with
  | .run _ s => Q s
  | .settled s => Q s
  | .lost => True

theorem fetchIdle_advances (s : State) : (fetchIdle s).Sat (Advances s) := by
  have h := Advances.refl s
  unfold fetchIdle
  split
  case h_1 => exact h.of_time_le rfl rfl (Nat.le_add_right _ _)
  case h_2 => exact h.of_time_le rfl rfl (Nat.le_add_right _ _)
  case h_3 => exact h.of_eq rfl rfl rfl
  case h_4 => exact h.of_eq rfl rfl rfl
  case h_5 => split <;> exact h.of_eq rfl rfl rfl

theorem fetch_advances (s : State) : (fetch s).Sat (Advances s) := by
  have h := Advances.refl s
  unfold fetch
  split
  · exact h.of_eq rfl rfl rfl
  · cases s.phase with
    | pollRssi k => exact resume_advances k (h.of_eq rfl rfl rfl)
    | idle => exact fetchIdle_advances s
    | run => trivial
    | waitIrq => trivial
    | rstHigh => trivial
    | rstSettle => trivial

/-- A step runs a command from where `fetch` leaves the machine, or stays there. -/
theorem step_advances {s t : State} (hstep : step s = .next t) : Advances s t := by
  have hf := fetch_advances s
  unfold step at hstep
  cases hfetch : fetch s with
  | run i u =>
    rw [hfetch] at hstep hf
    obtain ⟨t', hexec, ht'⟩ := exec_goesPast i u
    cases hexec.symm.trans hstep
    exact Advances.trans hf ht'
  | settled u =>
    rw [hfetch] at hstep hf
    cases hstep
    exact hf
  | lost =>
    rw [hfetch] at hstep
    cases hstep

/-- Settles O11: every step goes up in `Advances`. -/
theorem configurationStaysTraceGrowsTimeAdvances : Obligations.ConfigurationStaysTraceGrowsTimeAdvances := by
  unfold Obligations.ConfigurationStaysTraceGrowsTimeAdvances
  exact fun _ _ => step_advances

end Sys2Proof.Machine

/-! The invariant of 10_state.md R55 holds at reset (`inv_atReset`) and is kept by every step: `State.RunInv` is what of
it holds inside a command, every update keeps that (`runInv_closed`), and wherever a command stops `State.Inv` holds
(`exec_inv`, `inv_resume`); `fetch_keepsInv` puts the kinds of steps together. -/

namespace Sys2Proof.Machine

/-! ### A core reset and a turn of the poll -/

theorem step_of_cut {s : State} (h : s.rstIn = some 0) : step s = .next (coreReset s) := by
  simp [step, fetch, h]

theorem step_of_poll {s : State} {k : Resume} (hr : s.rstIn ≠ some 0) (hp : s.phase = .pollRssi k) :
    step s = .next (resume k s.unpresent) := by
  simp [step, fetch, hr, hp]

/-- Settles O15: the core reset is the whole step, and `State.atReset` spells the table out. -/
theorem coreResetPutsEveryRegisterBack : Obligations.CoreResetPutsEveryRegisterBack := by
  unfold Obligations.CoreResetPutsEveryRegisterBack
  intro s h
  exact ⟨coreReset s, step_of_cut h, rfl, rfl, rfl, rfl, rfl, rfl, rfl, rfl, rfl, rfl, rfl, rfl, rfl, rfl, rfl, rfl⟩

/-! ### The parts of the invariant -/

/-- The register invariant, with the line and the sequencer where they may be between two steps. -/
theorem inv_of_regInv {s : State} (h : s.RegInv) (hline : s.drv.devRst = true → s.phase = .rstHigh)
    (hrest : s.phase.atRest = true ∨ s.rstIn = some 0) (hfault : s.flt.fault = true → s.phase = .idle) : s.Inv := by
  obtain ⟨hcfg, hmem, hidx, hden, hlock, hmir⟩ := h
  exact ⟨hcfg, hmem, hidx, hden, hlock, hline, hmir, hrest, hfault⟩

/-- With no command running the registers say it all. -/
theorem inv_of_idle {s : State} (h : s.RegInv) (hline : s.drv.devRst = false) (hp : s.phase = .idle) : s.Inv :=
  inv_of_regInv h (fun hd => by simp [hline] at hd) (.inl (by rw [hp]; rfl)) fun _ => hp

theorem inv_respond {s : State} (h : s.RegInv) (hline : s.drv.devRst = false) (st : Status) (v : Word) :
    (respond st v s).Inv :=
  inv_of_idle h hline rfl

/-- Outside the reset pulse `dev_rst` is low (10_state.md R55 (e)). -/
theorem devRst_of_inv {s : State} (h : s.Inv) (hp : s.phase ≠ .rstHigh) : s.drv.devRst = false := by
  obtain ⟨-, -, -, -, -, hline, -⟩ := h
  cases hd : s.drv.devRst with
  | false => rfl
  | true => exact absurd (hline hd) hp

/-- In the fault state no command is running. -/
theorem fault_of_inv {s : State} (h : s.Inv) (hp : s.phase ≠ .idle) : s.flt.fault = false := by
  obtain ⟨-, -, -, -, -, -, -, -, hfault⟩ := h
  cases hf : s.flt.fault with
  | false => rfl
  | true => exact absurd (hfault hf) hp

theorem atRest_of_inv {s : State} (h : s.Inv) (hr : s.rstIn ≠ some 0) : s.phase.atRest = true := by
  obtain ⟨-, -, -, -, -, -, -, hrest, -⟩ := h
  exact hrest.resolve_right hr

/-- After core reset the invariant holds (10_state.md R54, R55). -/
theorem inv_atReset {c : Config} (hc : c.wf) (hs : List HostInput) (e : Env) (tr : List Event) :
    (State.atReset c hs e tr).Inv := by
  have hmem : Memory.wf (State.atReset c hs e tr) := by
    obtain ⟨-, -, ⟨-, -, -, hmir, -⟩, -⟩ := hc
    exact memory_wf_atReset c hmir hs e tr
  have hidx : 0 < c.channels := hc.1.1
  have hden : (1 : Byte) ∈ denominators := by decide
  exact inv_of_idle ⟨hc, hmem, hidx, hden, fun h => (Bool.false_ne_true h).elim, rfl⟩ rfl rfl

/-- Settles O9: the build meets its constraints, and reset states have the invariant. -/
theorem invariantHoldsAtReset : Obligations.InvariantHoldsAtReset := by
  unfold Obligations.InvariantHoldsAtReset
  exact ⟨inv_atReset Config.build_wf _ _ _, fun _ hs e tr hc => inv_atReset hc hs e tr⟩

/-! ### The updates that touch a register of the invariant -/

/-- Every row of the decode table has a legal denominator (41_bitrev_codec.md R151 to R160). -/
theorem decodedValue_den (k : SensorKinds) (kind : BitVec 4) (d0 d1 : Byte) :
    BitVec.ofNat 8 (decodedValue k kind d0 d1).2 ∈ denominators := by
  unfold decodedValue
  split_ifs <;> simp [denominators]

theorem decodeFields_den (k : SensorKinds) (dec : List Byte) : (decodeFields k dec).den ∈ denominators :=
  decodedValue_den k _ _ _

theorem regInv_setMode {s : State} (h : s.RegInv) (m : Byte) : (setMode m s).RegInv := by
  obtain ⟨hcfg, hmem, hidx, hden, hlock, hmir⟩ := h
  exact ⟨hcfg, memory_wf_setMode m hmem, hidx, hden, hlock, by simpa [setMode, List.drop_set] using hmir⟩

theorem regInv_tuneMirror {s : State} (h : s.RegInv) (hz : Word) : (tuneMirror hz s).RegInv := by
  obtain ⟨hcfg, hmem, hidx, hden, hlock, hmir⟩ := h
  exact ⟨hcfg, memory_wf_tuneMirror hz hmem, hidx, hden, hlock, by simpa [List.drop_set] using hmir⟩

theorem regInv_setRaw {s : State} (h : s.RegInv) (i : Nat) (b : Byte) : (s.setRaw i b).RegInv := by
  obtain ⟨hcfg, hmem, hrest⟩ := h
  exact ⟨hcfg, memory_wf_setRaw i b hmem, hrest⟩

theorem regInv_normalise {s : State} (h : s.RegInv) : (normalise s).RegInv := by
  obtain ⟨hcfg, hmem, hrest⟩ := h
  exact ⟨hcfg, memory_wf_normalise hmem, hrest⟩

theorem regInv_decodeReading {s : State} (h : s.RegInv) : (decodeReading s).RegInv := by
  obtain ⟨hcfg, hmem, hidx, hden, hrest⟩ := h
  unfold decodeReading
  split
  · exact ⟨hcfg, hmem, hidx, decodeFields_den _ _, hrest⟩
  · exact ⟨hcfg, hmem, hidx, hden, hrest⟩

/-- The plan has a channel, and its indices fit a byte (00_scope.md R6). -/
theorem channels_bounds {c : Config} (h : c.wf) : 0 < c.channels ∧ c.channels ≤ 256 := by
  obtain ⟨⟨hpos, hle, -⟩, -⟩ := h
  exact ⟨hpos, hle⟩

/-- The next hop index is in the plan, and fits its register (43_channel_plan.md R193). -/
theorem regInv_nextHop {s : State} (h : s.RegInv) : (nextHop s).RegInv := by
  obtain ⟨hcfg, hmem, hidx, hrest⟩ := h
  obtain ⟨hpos, hbound⟩ := channels_bounds hcfg
  have hlt : (s.sync.hopIndex.toNat + 1) % s.cfg.channels < s.cfg.channels := Nat.mod_lt _ hpos
  refine ⟨hcfg, hmem, ?_, hrest⟩
  simpa [Nat.mod_eq_of_lt (hlt.trans_le hbound)] using hlt

/-- Steps 5 and 6 leave a LOCKED machine below the threshold (42_hop_sync.md R177). -/
theorem conclude_locked {s : State} {t : Word} (h : (conclude t s).sync.locked = true) :
    s.sync.locked = true ∧ (conclude t s).sync.cb.toNat < s.cfg.badThreshold := by
  rw [conclude_sync] at h ⊢
  split
  · rename_i hdue
    simp [hdue] at h
  · rename_i hdue
    simp only [hdue, Bool.false_eq_true, if_false] at h
    simpa [resyncDue, h] using hdue

/-- The hop registers (10_state.md R39) of the second state are those of the first. -/
def SameHop (s u : State) : Prop :=
  u.sync.hopIndex = s.sync.hopIndex ∧ u.sync.hopChan = s.sync.hopChan ∧ u.sync.hopFreq = s.sync.hopFreq ∧
    u.sync.lastHop = s.sync.lastHop

theorem conclude_sameHop (t : Word) (s : State) : SameHop s (conclude t s) := by
  unfold SameHop
  rw [conclude_sync]
  split <;> exact ⟨rfl, rfl, rfl, rfl⟩

/-- The handler writes no hop register. -/
theorem handle_sameHop (b : Bool) (s : State) : SameHop s (handle b s) :=
  handleAt_cases (P := SameHop s) (fun _ => conclude_sameHop _ _) (fun _ _ => conclude_sameHop _ _)
    (fun _ _ _ => ⟨rfl, rfl, rfl, rfl⟩) (fun _ _ _ => conclude_sameHop _ _)

/-- After the handler a LOCKED machine is below the threshold (10_state.md R55 (c)). -/
theorem handle_locked {s : State} (b : Bool) (hlock : s.sync.locked = true → s.sync.cb.toNat < s.cfg.badThreshold) :
    (handle b s).sync.locked = true → (handle b s).sync.cb.toNat < s.cfg.badThreshold :=
  handleAt_cases (P := fun u => u.sync.locked = true → u.sync.cb.toNat < s.cfg.badThreshold)
    (fun _ h => (conclude_locked h).2) (fun _ _ h => (conclude_locked h).2) (fun _ _ _ => hlock)
    (fun _ _ _ h => (conclude_locked h).2)

/-- The handler keeps a legal denominator: it decodes a Reading or leaves its value as it was. -/
theorem handle_den {s : State} (b : Bool) (hden : s.rd.val.den ∈ denominators) :
    (handle b s).rd.val.den ∈ denominators := by
  refine handleAt_cases (P := fun u => u.rd.val.den ∈ denominators) ?_ ?_ ?_ ?_
  · intro _; rw [conclude_eq]; exact hden
  · intro _ _; rw [conclude_eq]; exact hden
  · intro _ _ _; exact hden
  · intro _ _ _; rw [conclude_eq]; exact decodeFields_den _ _

theorem regInv_handle {s : State} (h : s.RegInv) (b : Bool) : (handle b s).RegInv := by
  obtain ⟨hcfg, hmem, hidx, hden, hlock, hmir⟩ := h
  obtain ⟨hindex, -⟩ := handle_sameHop b s
  exact ⟨by simpa using hcfg, memory_wf_handle b hmem, by simpa [hindex] using hidx, handle_den b hden,
    by simpa using handle_locked b hlock, by simpa using hmir⟩

/-! ### Inside a command -/

/-- The invariant while a command runs outside the reset pulse: the registers', the line low, no fault. -/
def State.RunInv (s : State) : Prop := s.RegInv ∧ s.drv.devRst = false ∧ s.flt.fault = false

/-- Inside the reset pulse the line is high, and the sequencer in its first delay (44_transceiver.md R228). -/
def State.PulseInv (s : State) : Prop := s.RegInv ∧ s.phase = .rstHigh ∧ s.flt.fault = false

/-- A command that waits in the poll, or that a low `rst_n` has cut, is where it may be between two steps. -/
theorem inv_of_runInv {s : State} (h : s.RunInv) (hrest : s.phase.atRest = true ∨ s.rstIn = some 0) : s.Inv := by
  obtain ⟨hreg, hline, hfault⟩ := h
  exact inv_of_regInv hreg (fun hd => by simp [hline] at hd) hrest fun hf => by simp [hfault] at hf

theorem inv_of_pulseInv {s : State} (h : s.PulseInv) (hcut : s.rstIn = some 0) : s.Inv := by
  obtain ⟨hreg, hphase, hfault⟩ := h
  exact inv_of_regInv hreg (fun _ => hphase) (.inr hcut) fun hf => by simp [hfault] at hf

theorem inv_respond_of_runInv {s : State} (h : s.RunInv) (st : Status) (v : Word) : (respond st v s).Inv :=
  inv_respond h.1 h.2.1 st v

/-- Every update of a bus command keeps the running invariant, and where it stops the invariant holds. -/
theorem runInv_closed : Closed State.RunInv State.Inv where
  event _ _ _ _ h := h
  issue _ h := h
  phase _ _ h := h
  irqPrev _ _ h := h
  mode _ m h := ⟨regInv_setMode h.1 m, h.2⟩
  tune _ hz h := ⟨regInv_tuneMirror h.1 hz, h.2⟩
  rssi _ _ h := h
  timedOut _ _ h := h
  raw _ i b h := ⟨regInv_setRaw h.1 i b, h.2⟩
  handle _ b h := ⟨regInv_handle h.1 b, by simpa using h.2⟩
  hop _ h := ⟨regInv_nextHop h.1, h.2⟩
  cut _ h hcut := inv_of_runInv h (.inr hcut)
  fail _ _ _ h _ := inv_of_idle h.1 h.2.1 rfl
  poll _ _ h hp := inv_of_runInv h (.inl (by rw [hp]; rfl))

theorem inv_deviceReset {s : State} (h : s.RunInv) : (deviceReset s).Sat (fun _ => State.RunInv) State.Inv :=
  runInv_closed.deviceReset (H := State.PulseInv) (fun _ h => ⟨h.1, rfl, h.2.2⟩) (fun _ _ _ _ h => h)
    (fun _ h => inv_of_pulseInv h) (fun _ h => ⟨h.1, rfl, h.2.2⟩) h

/-- A command whose pieces keep the running invariant ends with the invariant. -/
theorem inv_finish {r : Res Word} (h : r.Sat (fun _ => State.RunInv) State.Inv) : r.finish.Inv :=
  h.finish (fun _ _ hu hcut => inv_of_runInv hu (.inr hcut)) fun v _ hu _ => inv_respond_of_runInv hu .ok v

theorem inv_finish_answer {α : Type} {r : Res α} {v : α → State → Word}
    (h : r.Sat (fun _ => State.RunInv) State.Inv) : (r.andThen fun a u => .ok (v a u) u).finish.Inv :=
  inv_finish (h.andThen fun _ _ hu => hu)

theorem inv_readRssi {s : State} (h : s.RunInv) (f : Bool) :
    ((sampleRssi f .readRssi s).andThen storeRssi).finish.Inv :=
  inv_finish ((runInv_closed.sampleRssi f .readRssi h).andThen fun v u hu => runInv_closed.rssi u v hu)

theorem inv_loopTurn {s : State} (h : s.RunInv) : (loopTurn s).finish.Inv :=
  inv_finish ((runInv_closed.receive s.cfg.dwell.toNat .loopStep h).andThen fun _ _ hu => runInv_closed.loopDecide hu)

theorem inv_resume {s : State} (h : s.RunInv) (k : Resume) : (resume k s).Inv :=
  runInv_closed.resume (fun _ v hu _ => inv_respond_of_runInv hu .ok v) k h

/-! ### Commands and steps -/

/-- The outcome goes on, in a state that has the property. -/
def GoesTo (P : State → Prop) (o : Host.Outcome State Fault Refusal) : Prop := ∃ t, o = .next t ∧ P t

/-- A judged command: refused with nothing changed, or run without a fault. -/
theorem judge_goesTo {P : State → Prop} {s run : State} {argOk : Bool} (hrefuse : ∀ st, P (refuse st s))
    (hrun : s.flt.fault = false → P run) : GoesTo P (.next (judge s argOk run)) :=
  ⟨_, rfl, judge_cases (hrefuse _) (hrefuse _) fun hf _ => hrun hf⟩

/-- A command that runs in the fault state too. -/
theorem judgeInFault_goesTo {P : State → Prop} {s run : State} {argOk : Bool} (hrefuse : ∀ st, P (refuse st s))
    (hrun : P run) : GoesTo P (.next (judgeInFault s argOk run)) := by
  refine ⟨_, rfl, ?_⟩
  unfold judgeInFault
  split
  · exact hrun
  · exact hrefuse _

theorem inv_readHostReg {s : State} (h : s.RegInv) (hline : s.drv.devRst = false) (r : Byte) :
    (readHostReg r s).Inv := by
  unfold readHostReg
  split
  · exact inv_respond (s := s.sampling) h hline _ _
  · exact inv_respond h hline _ _

/-- Every command goes on, and ends with the invariant: answered, cut, or in its poll. -/
theorem exec_inv {s : State} (h : s.RegInv) (hline : s.drv.devRst = false) (i : Instr) :
    GoesTo State.Inv (exec i s) := by
  have hans := inv_respond h hline
  have hrefuse : ∀ st, (refuse st s).Inv := fun st => hans st 0
  have hrun : s.flt.fault = false → s.RunInv := fun hf => ⟨h, hline, hf⟩
  have C := runInv_closed
  cases i with
  | nop => exact judgeInFault_goesTo hrefuse (hans _ _)
  | rd r => exact judgeInFault_goesTo hrefuse (inv_readHostReg h hline r)
  | crcTbl b => exact judge_goesTo hrefuse fun _ => hans _ _
  | crcInit c => exact judge_goesTo hrefuse fun _ => inv_of_idle h hline rfl
  | crcByte b => exact judge_goesTo hrefuse fun _ => inv_of_idle h hline rfl
  | crcFrame => exact judge_goesTo hrefuse fun _ => inv_of_idle h hline rfl
  | bitrev b => exact judge_goesTo hrefuse fun _ => hans _ _
  | frameLd x b => exact judge_goesTo hrefuse fun _ => inv_respond (regInv_setRaw h _ b) hline _ _
  | frameNorm => exact judge_goesTo hrefuse fun _ => inv_respond (regInv_normalise h) hline _ _
  | decodeFrame =>
    have hdrv : (decodeReading s).drv = s.drv := by unfold decodeReading; split <;> rfl
    exact judge_goesTo hrefuse fun _ => inv_respond (regInv_decodeReading h) (hdrv ▸ hline) _ _
  | hpktI f => exact judge_goesTo hrefuse fun hf => inv_respond_of_runInv (C.handle s f (hrun hf)) _ _
  | hpktR => exact judge_goesTo hrefuse fun hf => inv_respond_of_runInv (C.handle s _ (hrun hf)) _ _
  | planFreq b => exact judge_goesTo hrefuse fun _ => hans _ _
  | planHop b => exact judge_goesTo hrefuse fun _ => hans _ _
  | nextHop => exact judge_goesTo hrefuse fun _ => inv_respond (regInv_nextHop h) hline _ _
  | syncRegs => exact judge_goesTo hrefuse fun hf => inv_finish_answer (C.push (hrun hf))
  | setFreqI w => exact judge_goesTo hrefuse fun hf => inv_finish_answer (C.setFrequency w (hrun hf))
  | setFreqH => exact judge_goesTo hrefuse fun hf => inv_finish_answer (C.setFrequency _ (hrun hf))
  | receiveI w => exact judge_goesTo hrefuse fun hf => inv_finish_answer (C.receive w.toNat .receive (hrun hf))
  | receiveD => exact judge_goesTo hrefuse fun hf => inv_finish_answer (C.receive _ .receive (hrun hf))
  | devReset => exact judge_goesTo hrefuse fun hf => inv_finish_answer (inv_deviceReset (hrun hf))
  | readRssi f => exact judge_goesTo hrefuse fun hf => inv_readRssi (hrun hf) f
  | loopInit => exact judge_goesTo hrefuse fun hf => inv_finish_answer (C.hopAndTune (hrun hf))
  | loopStep => exact judge_goesTo hrefuse fun hf => inv_loopTurn (hrun hf)

/-- A step with the invariant begins with a command that `exec_inv` speaks of, or settles with the invariant. -/
def Fetched.KeepsInv (f : Fetched) : Prop :=
  match f with
  | .run _ s => s.RegInv ∧ s.drv.devRst = false
  | .settled s => s.Inv
  | .lost => False

theorem fetchIdle_keepsInv {s : State} (h : s.RegInv) (hline : s.drv.devRst = false) (hp : s.phase = .idle) :
    (fetchIdle s).KeepsInv := by
  unfold fetchIdle
  split
  case h_1 => exact inv_of_idle h hline hp
  case h_2 => exact inv_of_idle h hline hp
  case h_3 => exact inv_of_idle h hline hp
  case h_4 => exact inv_of_idle h hline hp
  case h_5 rest _ =>
    split
    · exact ⟨regInv_accept h rest, hline⟩
    · exact inv_of_idle h hline rfl

/-- A low line is a core reset; with the line high the machine is at rest: ready, or in a poll. -/
theorem fetch_keepsInv {s : State} (h : s.Inv) : (fetch s).KeepsInv := by
  have hreg := regInv_of_inv h
  unfold fetch
  split
  · exact inv_atReset h.1 _ _ _
  · rename_i hr
    have hrest := atRest_of_inv h hr
    cases hp : s.phase with
    | idle => exact fetchIdle_keepsInv hreg (devRst_of_inv h (by simp [hp])) hp
    | pollRssi k =>
      exact inv_resume (s := s.unpresent) ⟨hreg, devRst_of_inv h (by simp [hp]), fault_of_inv h (by simp [hp])⟩ k
    | run => simp [hp, Phase.atRest] at hrest
    | waitIrq => simp [hp, Phase.atRest] at hrest
    | rstHigh => simp [hp, Phase.atRest] at hrest
    | rstSettle => simp [hp, Phase.atRest] at hrest

/-- Settles O10: what a step begins with keeps the invariant (`fetch_keepsInv`), and so does its command
(`exec_inv`). -/
theorem everyStepGoesOnAndKeepsTheInvariant : Obligations.EveryStepGoesOnAndKeepsTheInvariant := by
  unfold Obligations.EveryStepGoesOnAndKeepsTheInvariant
  intro s h
  have hf := fetch_keepsInv h
  unfold step
  cases hfetch : fetch s with
  | run i u =>
    rw [hfetch] at hf
    exact exec_inv hf.1 hf.2 i
  | settled u =>
    rw [hfetch] at hf
    exact ⟨u, rfl, hf⟩
  | lost =>
    rw [hfetch] at hf
    exact hf.elim

end Sys2Proof.Machine

/-! The frame of every command (10_state.md R25 to R50). `WritesOwn i s t` says, register by register, that what differs
between `s` and `t` is what the rules let the command `i` write. The lemmas follow the model from its updates to its
procedures, each with what `i` must be to contain it; `LOOP.STEP` contains every update but those of the reset line,
so for it `Closed` does the work. -/

namespace Sys2Proof.Machine

open Sys2Proof.Spec

/-- From `s` to `t` no register has changed but those whose rules name the command `i`. -/
structure WritesOwn (i : Instr) (s t : State) : Prop where
  hop : t.sync.hopIndex ≠ s.sync.hopIndex ∨ t.sync.hopChan ≠ s.sync.hopChan ∨ t.sync.hopFreq ≠ s.sync.hopFreq ∨
    t.sync.lastHop ≠ s.sync.lastHop → hopCommand i = true
  sync : t.sync.locked ≠ s.sync.locked ∨ t.sync.cb ≠ s.sync.cb ∨ t.sync.lastGood ≠ s.sync.lastGood ∨
    t.sync.shouldHop ≠ s.sync.shouldHop ∨ t.sync.hpOutcome ≠ s.sync.hpOutcome → handlerCommand i = true
  rd : t.rd ≠ s.rd → handlerCommand i = true ∨ i = .decodeFrame
  valid : t.rd.valid = true → s.rd.valid = true ∨ handlerCommand i = true
  crcOk : t.chk.crcOk ≠ s.chk.crcOk → handlerCommand i = true ∨ i = .crcFrame
  crc : t.chk.crc ≠ s.chk.crc →
    handlerCommand i = true ∨ i = .crcFrame ∨ (∃ h, i = .crcInit h) ∨ ∃ b, i = .crcByte b
  raw : t.buf.raw ≠ s.buf.raw → receiveCommandOf i = true ∨ ∃ x b, i = .frameLd x b
  dec : t.buf.dec ≠ s.buf.dec → handlerCommand i = true ∨ i = .frameNorm
  mir : t.drv.mir ≠ s.drv.mir → receiveCommandOf i = true ∨ tuneCommand i = true
  rxTimedOut : t.drv.rxTimedOut ≠ s.drv.rxTimedOut → receiveCommandOf i = true
  rssiRaw : t.drv.rssiRaw ≠ s.drv.rssiRaw → receiveCommandOf i = true ∨ ∃ f, i = .readRssi f
  devRst : t.drv.devRst ≠ s.drv.devRst → i = .devReset
  flt : t.flt ≠ s.flt → busCommand i = true

namespace WritesOwn

theorem refl (i : Instr) (s : State) : WritesOwn i s s where
  hop h := by simp at h
  sync h := by simp at h
  rd h := absurd rfl h
  valid h := .inl h
  crcOk h := absurd rfl h
  crc h := absurd rfl h
  raw h := absurd rfl h
  dec h := absurd rfl h
  mir h := absurd rfl h
  rxTimedOut h := absurd rfl h
  rssiRaw h := absurd rfl h
  devRst h := absurd rfl h
  flt h := absurd rfl h

variable {i : Instr} {s t : State}

/-! ### Updates -/

theorem respond (h : WritesOwn i s t) (st : Status) (v : Word) : WritesOwn i s (respond st v t) := { h with }

theorem passEvent (h : WritesOwn i s t) (ev : Event) (e : Env) : WritesOwn i s (t.passEvent ev e) := { h with }

theorem enter (h : WritesOwn i s t) (p : Phase) : WritesOwn i s (t.enter p) := { h with }

theorem irqPrev (h : WritesOwn i s t) (b : Bool) : WritesOwn i s { t with drv := { t.drv with irqPrev := b } } :=
  { h with }

theorem sampling (h : WritesOwn i s t) : WritesOwn i s t.sampling := { h with }

theorem raiseBusError (h : WritesOwn i s t) (hi : busCommand i = true) (a : Byte) (r : Bool) :
    WritesOwn i s (raiseBusError a r t) := { h with flt := fun _ => hi }

theorem setMode (h : WritesOwn i s t) (hi : receiveCommandOf i = true) (m : Byte) : WritesOwn i s (setMode m t) :=
  { h with mir := fun _ => .inl hi }

theorem tuneMirror (h : WritesOwn i s t) (hi : tuneCommand i = true) (hz : Word) : WritesOwn i s (tuneMirror hz t) :=
  { h with mir := fun _ => .inr hi }

theorem setRssi (h : WritesOwn i s t) (hi : receiveCommandOf i = true ∨ ∃ f, i = .readRssi f) (v : Byte) :
    WritesOwn i s (t.setRssi v) := { h with rssiRaw := fun _ => hi }

theorem setTimedOut (h : WritesOwn i s t) (hi : receiveCommandOf i = true) (b : Bool) :
    WritesOwn i s (t.setTimedOut b) := { h with rxTimedOut := fun _ => hi }

theorem setRaw (h : WritesOwn i s t) (hi : receiveCommandOf i = true ∨ ∃ x b, i = .frameLd x b) (n : Nat) (b : Byte) :
    WritesOwn i s (t.setRaw n b) := { h with raw := fun _ => hi }

theorem nextHop (h : WritesOwn i s t) (hi : hopCommand i = true) : WritesOwn i s (nextHop t) :=
  { h with hop := fun _ => hi }

/-- The handler writes what its rules give it, and no hop register. -/
theorem handle (h : WritesOwn i s t) (hi : handlerCommand i = true) (b : Bool) : WritesOwn i s (handle b t) := by
  obtain ⟨hindex, hchan, hfreq, hlast⟩ := handle_sameHop b t
  exact {
    hop := by simpa only [hindex, hchan, hfreq, hlast] using h.hop
    sync := fun _ => hi
    rd := fun _ => .inl hi
    valid := fun _ => .inr hi
    crcOk := fun _ => .inl hi
    crc := fun _ => .inl hi
    raw := by simpa only [handle_raw] using h.raw
    dec := fun _ => .inl hi
    mir := by simpa only [handle_drv] using h.mir
    rxTimedOut := by simpa only [handle_drv] using h.rxTimedOut
    rssiRaw := by simpa only [handle_drv] using h.rssiRaw
    devRst := by simpa only [handle_drv] using h.devRst
    flt := by simpa only [handle_flt] using h.flt }

theorem decodeReading (s : State) : WritesOwn .decodeFrame s (decodeReading s) := by
  unfold Machine.decodeReading
  split <;> exact { refl _ s with rd := fun _ => .inr rfl, valid := fun h => by simp at h }

/-! ### Transactions -/

theorem busRead (h : WritesOwn i s t) (hi : busCommand i = true) (a : Byte) :
    (busRead a t).Sat (fun _ => WritesOwn i s) (WritesOwn i s) :=
  have hread : WritesOwn i s (t.afterRead a) := { h with }
  busRead_sat (fun _ => h) (fun _ => h.passEvent _ _) (fun _ => hread) (fun _ => hread)
    fun _ => hread.raiseBusError hi a true

theorem busWrite (h : WritesOwn i s t) (hi : busCommand i = true) (a v : Byte) :
    (busWrite a v t).Sat (fun _ => WritesOwn i s) (WritesOwn i s) :=
  have hwrite : WritesOwn i s (t.afterWrite a v) := { h with }
  busWrite_sat (fun _ => h) (fun _ => h.passEvent _ _) (fun _ => hwrite) (fun _ => hwrite)
    fun _ => hwrite.raiseBusError hi a false

theorem writeSlots (hi : busCommand i = true) (ks : List Nat) (h : WritesOwn i s t) :
    (writeSlots ks t).Sat (fun _ => WritesOwn i s) (WritesOwn i s) := by
  induction ks generalizing t with
  | nil => exact h
  | cons k ks ih => exact (h.busWrite hi _ _).andThen fun _ _ h' => ih h'

theorem push (h : WritesOwn i s t) (hi : busCommand i = true) :
    (push t).Sat (fun _ => WritesOwn i s) (WritesOwn i s) :=
  writeSlots hi _ h

theorem pollOnce (h : WritesOwn i s t) (hi : busCommand i = true) (k : Resume) :
    (pollOnce k t).Sat (fun _ => WritesOwn i s) (WritesOwn i s) := by
  refine ((h.enter _).busRead hi _).andThen fun v u hu => ?_
  split
  · exact hu.enter .run
  · exact hu

theorem sampleRssi (h : WritesOwn i s t) (hi : busCommand i = true) (trigger : Bool) (k : Resume) :
    (sampleRssi trigger k t).Sat (fun _ => WritesOwn i s) (WritesOwn i s) := by
  cases trigger with
  | false => exact h.busRead hi _
  | true =>
    exact (h.busWrite hi _ _).andThen fun _ _ h1 => (h1.pollOnce hi k).andThen fun _ _ h2 => h2.busRead hi _

/-! ### Tuning, receiving, device reset -/

theorem setFrequency (h : WritesOwn i s t) (hi : tuneCommand i = true) (hz : Word) (hb : busCommand i = true) :
    (setFrequency hz t).Sat (fun _ => WritesOwn i s) (WritesOwn i s) :=
  (h.tuneMirror hi hz).push hb

theorem waitIrq (h : WritesOwn i s t) (timeout : Nat) :
    (waitIrq timeout t).Sat (fun _ => WritesOwn i s) (WritesOwn i s) :=
  unlessReset_sat (fun _ => h.enter _) fun _ =>
    ((h.passEvent (.wait (waitEnd t.env timeout).ticks (waitEnd t.env timeout).fired)
      (t.env.pass (waitEnd t.env timeout).ticks)).enter .run).irqPrev (waitEnd t.env timeout).irqPrev

theorem busCommand_of_receive (hi : receiveCommandOf i = true) : busCommand i = true := by
  cases i with
  | receiveI w => rfl
  | receiveD => rfl
  | loopStep => rfl
  | _ => cases hi

theorem readPayload (hi : receiveCommandOf i = true) (is : List Nat) (h : WritesOwn i s t) :
    (readPayload is t).Sat (fun _ => WritesOwn i s) (WritesOwn i s) := by
  induction is generalizing t with
  | nil => exact h
  | cons n is ih =>
    exact (h.busRead (busCommand_of_receive hi) _).andThen fun b _ h' => ih (h'.setRaw (.inl hi) n b)

theorem receiveTail (h : WritesOwn i s t) (hi : receiveCommandOf i = true) (fired : Bool) (v : Byte) :
    (receiveTail fired v t).Sat (fun _ => WritesOwn i s) (WritesOwn i s) := by
  refine (((h.setRssi (.inl hi) v).setMode hi _).push (busCommand_of_receive hi)).andThen fun _ u hu => ?_
  cases fired with
  | false => exact hu.setTimedOut hi true
  | true => exact (readPayload hi _ hu).andThen fun _ _ h' => h'.setTimedOut hi false

theorem receive (h : WritesOwn i s t) (hi : receiveCommandOf i = true) (timeout : Nat) (k : Bool → Resume) :
    (receive timeout k t).Sat (fun _ => WritesOwn i s) (WritesOwn i s) := by
  have hb := busCommand_of_receive hi
  have hwait := ((h.setMode hi t.cfg.modeRx).push hb).andThen fun _ _ h' => h'.waitIrq timeout
  exact hwait.andThen fun fired _ h' => (h'.sampleRssi hb _ _).andThen fun v _ h'' => h''.receiveTail hi fired v

theorem driveReset (h : WritesOwn .devReset s t) (level : Bool) (p : Phase) :
    (driveReset level p t).Sat (fun _ => WritesOwn .devReset s) (WritesOwn .devReset s) :=
  unlessReset_sat (fun _ => h) fun _ => { h with devRst := fun _ => rfl }

theorem delay (h : WritesOwn i s t) (ticks : Nat) : (delay ticks t).Sat (fun _ => WritesOwn i s) (WritesOwn i s) :=
  unlessReset_sat (fun _ => h) fun _ => h.passEvent _ _

theorem deviceReset (h : WritesOwn .devReset s t) :
    (deviceReset t).Sat (fun _ => WritesOwn .devReset s) (WritesOwn .devReset s) :=
  (h.driveReset true _).andThen fun _ _ h1 => (h1.delay _).andThen fun _ _ h2 =>
    (h2.driveReset false _).andThen fun _ _ h3 => (h3.delay _).andThen fun _ _ h4 => (h4.enter .run).push rfl

/-- `LOOP.STEP` may write what any update of a bus command writes. -/
theorem loopStep_closed (s : State) : Closed (WritesOwn .loopStep s) (WritesOwn .loopStep s) where
  event _ ev e _ h := h.passEvent ev e
  issue _ h := { h with }
  phase _ p h := h.enter p
  irqPrev _ b h := h.irqPrev b
  mode _ m h := h.setMode rfl m
  tune _ hz h := h.tuneMirror rfl hz
  rssi _ v h := h.setRssi (.inl rfl) v
  timedOut _ b h := h.setTimedOut rfl b
  raw _ n b h := h.setRaw (.inl rfl) n b
  handle _ b h := h.handle rfl b
  hop _ h := h.nextHop rfl
  cut _ h _ := h
  fail _ a r h _ := h.raiseBusError rfl a r
  poll _ _ h _ := h

/-! ### Ends of commands -/

theorem finish {r : Res Word} (h : r.Sat (fun _ => WritesOwn i s) (WritesOwn i s)) : WritesOwn i s r.finish :=
  Res.Sat.finish h (fun _ _ h' _ => h') fun v _ h' _ => h'.respond .ok v

theorem finish_answer {α : Type} {r : Res α} {v : α → State → Word}
    (h : r.Sat (fun _ => WritesOwn i s) (WritesOwn i s)) :
    WritesOwn i s (r.andThen fun a u => .ok (v a u) u).finish :=
  finish (h.andThen fun _ _ h' => h')

theorem storeRssi (h : WritesOwn i s t) (hi : receiveCommandOf i = true ∨ ∃ f, i = .readRssi f) (v : Byte) :
    (storeRssi v t).Sat (fun _ => WritesOwn i s) (WritesOwn i s) :=
  h.setRssi hi v

theorem readHostReg (i : Instr) (r : Byte) (s : State) : WritesOwn i s (readHostReg r s) := by
  unfold Machine.readHostReg
  split
  · exact (refl i s).sampling.respond _ _
  · exact (refl i s).respond _ _

end WritesOwn

/-! ### Commands and turns -/

/-- The step that begins a command writes the command's registers only. -/
theorem exec_writesOwn (i : Instr) (s : State) : GoesTo (WritesOwn i s) (exec i s) := by
  have h := WritesOwn.refl i s
  have hrefuse : ∀ st, WritesOwn i s (refuse st s) := fun st => h.respond st 0
  cases i with
  | nop => exact judgeInFault_goesTo hrefuse (h.respond _ _)
  | rd r => exact judgeInFault_goesTo hrefuse (.readHostReg _ r s)
  | crcTbl b => exact judge_goesTo hrefuse fun _ => h.respond _ _
  | crcInit c => exact judge_goesTo hrefuse fun _ => { h with crc := fun _ => .inr (.inr (.inl ⟨c, rfl⟩)) }
  | crcByte b => exact judge_goesTo hrefuse fun _ => { h with crc := fun _ => .inr (.inr (.inr ⟨b, rfl⟩)) }
  | crcFrame =>
    exact judge_goesTo hrefuse fun _ => { h with crcOk := fun _ => .inr rfl, crc := fun _ => .inr (.inl rfl) }
  | bitrev b => exact judge_goesTo hrefuse fun _ => h.respond _ _
  | frameLd x b => exact judge_goesTo hrefuse fun _ => (h.setRaw (.inr ⟨x, b, rfl⟩) _ b).respond _ _
  | frameNorm => exact judge_goesTo hrefuse fun _ => { h with dec := fun _ => .inr rfl }
  | decodeFrame => exact judge_goesTo hrefuse fun _ => (WritesOwn.decodeReading s).respond _ _
  | hpktI f => exact judge_goesTo hrefuse fun _ => (h.handle rfl f).respond _ _
  | hpktR => exact judge_goesTo hrefuse fun _ => (h.handle rfl _).respond _ _
  | planFreq b => exact judge_goesTo hrefuse fun _ => h.respond _ _
  | planHop b => exact judge_goesTo hrefuse fun _ => h.respond _ _
  | nextHop => exact judge_goesTo hrefuse fun _ => (h.nextHop rfl).respond _ _
  | syncRegs => exact judge_goesTo hrefuse fun _ => .finish_answer (h.push rfl)
  | setFreqI w => exact judge_goesTo hrefuse fun _ => .finish_answer (h.setFrequency rfl w rfl)
  | setFreqH => exact judge_goesTo hrefuse fun _ => .finish_answer (h.setFrequency rfl _ rfl)
  | receiveI w => exact judge_goesTo hrefuse fun _ => .finish_answer (h.receive rfl w.toNat .receive)
  | receiveD => exact judge_goesTo hrefuse fun _ => .finish_answer (h.receive rfl _ .receive)
  | devReset => exact judge_goesTo hrefuse fun _ => .finish_answer h.deviceReset
  | readRssi f =>
    exact judge_goesTo hrefuse fun _ =>
      .finish ((h.sampleRssi rfl f .readRssi).andThen fun v _ h' => h'.storeRssi (.inr ⟨f, rfl⟩) v)
  | loopInit => exact judge_goesTo hrefuse fun _ => .finish_answer ((h.nextHop rfl).setFrequency rfl _ rfl)
  | loopStep =>
    have C := WritesOwn.loopStep_closed s
    exact judge_goesTo hrefuse fun _ =>
      .finish ((C.receive _ .loopStep h).andThen fun _ _ h' => C.loopDecide h')

/-- The rest of a command after its poll, for the command that `k` is the poll of. -/
theorem afterRssi_writesOwn {i : Instr} {fired : Bool} {k : Resume} (hk : pollOf fired i = some k) (v : Byte)
    {s t : State} (h : WritesOwn i s t) : (afterRssi k v t).Sat (fun _ => WritesOwn i s) (WritesOwn i s) := by
  have hreceive (hi : receiveCommandOf i = true) :
      (afterRssi (.receive fired) v t).Sat (fun _ => WritesOwn i s) (WritesOwn i s) :=
    (h.receiveTail hi fired v).andThen fun _ _ h' => h'
  cases i with
  | readRssi f =>
    cases f with
    | false => cases hk
    | true => cases hk; exact h.storeRssi (.inr ⟨true, rfl⟩) v
  | receiveI w => cases hk; exact hreceive rfl
  | receiveD => cases hk; exact hreceive rfl
  | loopStep => cases hk; exact (WritesOwn.loopStep_closed s).afterRssi (.loopStep fired) v h
  | _ => cases hk

theorem busCommand_of_pollOf {i : Instr} {fired : Bool} {k : Resume} (hk : pollOf fired i = some k) :
    busCommand i = true := by
  cases i with
  | readRssi f => rfl
  | receiveI w => rfl
  | receiveD => rfl
  | loopStep => rfl
  | _ => cases hk

/-- A later turn of the poll writes the command's registers only. -/
theorem resume_writesOwn {i : Instr} {fired : Bool} {k : Resume} (hk : pollOf fired i = some k) {s t : State}
    (h : WritesOwn i s t) : WritesOwn i s (resume k t) :=
  have hi := busCommand_of_pollOf hk
  .finish <| (h.pollOnce hi k).andThen fun _ _ h1 => (h1.busRead hi _).andThen fun v _ h2 =>
    afterRssi_writesOwn hk v h2

theorem turnOf_writesOwn {i : Instr} {s t : State} (h : turnOf i s t) : WritesOwn i s t := by
  rcases h with hexec | ⟨⟨fired, k, hk, hp⟩, hr, hstep⟩
  · obtain ⟨u, hu, hown⟩ := exec_writesOwn i s
    cases hu.symm.trans hexec
    exact hown
  · cases (step_of_poll hr hp).symm.trans hstep
    exact resume_writesOwn hk { WritesOwn.refl i s with }

/-- Settles O14: the clauses are the fields of `WritesOwn`. -/
theorem registersAreWrittenOnlyByTheirWriters : Obligations.RegistersAreWrittenOnlyByTheirWriters := by
  unfold Obligations.RegistersAreWrittenOnlyByTheirWriters
  intro i s t h
  have w := turnOf_writesOwn h
  exact ⟨w.hop, w.sync, w.rd, w.valid, w.crcOk, w.crc, w.raw, w.dec, w.mir, w.rxTimedOut, w.rssiRaw, w.devRst,
    w.flt⟩

end Sys2Proof.Machine

/-! A valid Reading (10_state.md R36, R55 (d)). The handler establishes `State.Verified`, every later update of its command
keeps it (`verified_closed`), and no piece of a command before the handler answers `OK` (`unanswered_closed`). -/

namespace Sys2Proof.Machine

open Sys2Proof.Spec

/-- What `rd_valid = 1` says of the other registers (10_state.md R36, R38, R55 (d)). -/
def State.Verified (s : State) : Prop :=
  s.rd.valid = true →
    s.rd.nfts = false ∧ s.chk.crcOk = true ∧ s.sync.hpOutcome = .good ∧ s.sync.locked = true ∧
      s.rd.val.station = s.cfg.stationFilter ∧ s.rd.val.batt = s.cfg.stationFilter.getLsbD 3

/-- The state has answered `OK` (30_encoding.md R95). -/
def State.AnswersOk (s : State) : Prop := ∃ v, s.resp = some { status := .ok, result := v }

/-- An answer `OK` comes with a verified Reading. -/
def State.OkVerified (s : State) : Prop := s.AnswersOk → s.Verified

theorem verified_of_not_valid {s : State} (h : s.rd.valid = false) : s.Verified := fun hv => by simp [h] at hv

theorem okVerified_of_resp_none {s : State} (h : s.resp = none) : s.OkVerified := fun ⟨_, hv⟩ => by simp [h] at hv

theorem okVerified_of_status {s : State} {st : Status} {v : Word}
    (h : s.resp = some { status := st, result := v }) (hst : st ≠ .ok) : s.OkVerified := by
  rintro ⟨w, hw⟩
  simp only [h, Option.some.injEq, Response.mk.injEq] at hw
  exact absurd hw.1 hst

/-- A Reading decoded from a frame for this station is for this station, and its battery flag is bit 3 of the station
(41_bitrev_codec.md R146, R148). -/
theorem decodeFields_addressed {c : Config} {dec : List Byte} (h : addressed c (dec.getD 0 0) = true) :
    (decodeFields c.kinds dec).station = c.stationFilter ∧
      (decodeFields c.kinds dec).batt = c.stationFilter.getLsbD 3 := by
  have hstation : (dec.getD 0 0).extractLsb' 0 4 = c.stationFilter := by simpa [addressed] using h
  refine ⟨hstation, ?_⟩
  rw [← hstation]
  simp [decodeFields]

/-- A good frame is LOCKED after step 5: the counter is 0, below every threshold (42_hop_sync.md R176, R177). -/
theorem conclude_good_locked {s : State} (t u : Word) (hthreshold : 1 ≤ s.cfg.badThreshold) :
    (conclude u (handleGood t s)).sync.locked = true ∧ (conclude u (handleGood t s)).sync.hpOutcome = .good := by
  have hdue : resyncDue (handleGood t s).cfg (handleGood t s).sync = false := by
    simpa [resyncDue, handleGood] using Nat.one_le_iff_ne_zero.mp hthreshold
  rw [conclude_sync, hdue]
  exact ⟨rfl, rfl⟩

/-- The threshold of a well-formed configuration is positive (00_scope.md R6). -/
theorem badThreshold_pos {c : Config} (h : c.wf) : 1 ≤ c.badThreshold := by
  obtain ⟨-, ⟨-, -, hthreshold, -⟩, -⟩ := h
  exact hthreshold

/-- Only the path of a good frame leaves a valid Reading (42_hop_sync.md R173 to R176). -/
theorem handle_verified {s : State} (hcfg : s.cfg.wf) (b : Bool) : (handle b s).Verified := by
  refine handleAt_cases (P := State.Verified) ?_ ?_ ?_ ?_
  · intro _; rw [conclude_eq]; exact verified_of_not_valid rfl
  · intro _ _; rw [conclude_eq]; exact verified_of_not_valid rfl
  · intro _ _ _; exact verified_of_not_valid rfl
  · intro _ hcrc haddressed _
    obtain ⟨hlocked, hgood⟩ := conclude_good_locked (s := verifyDec (normalise s.sampling)) s.sampling.env.now
      s.sampling.env.now (badThreshold_pos hcfg)
    obtain ⟨hstation, hbatt⟩ := decodeFields_addressed haddressed
    refine ⟨?_, ?_, hgood, hlocked, ?_⟩
    · rw [conclude_eq]; rfl
    · rw [conclude_eq]; exact hcrc
    · rw [conclude_eq]; exact ⟨hstation, hbatt⟩

/-- The handler makes a Reading verified, and nothing else of a bus command touches what that says. -/
theorem verified_closed : Closed (fun s => s.cfg.wf ∧ s.Verified) State.OkVerified where
  event _ _ _ _ h := h
  issue _ h := h
  phase _ _ h := h
  irqPrev _ _ h := h
  mode _ _ h := h
  tune _ _ h := h
  rssi _ _ h := h
  timedOut _ _ h := h
  raw _ _ _ h := h
  handle _ b h := ⟨by simpa using h.1, handle_verified h.1 b⟩
  hop _ h := h
  cut _ h _ := fun _ => h.2
  fail _ _ _ h _ := fun _ => h.2
  poll _ _ h _ := fun _ => h.2

/-- Before its end a bus command has not answered; when it stops, it stops without an answer `OK`. -/
theorem unanswered_closed : Closed (fun s => s.cfg.wf ∧ s.resp = none) State.OkVerified where
  event _ _ _ _ h := h
  issue _ h := h
  phase _ _ h := h
  irqPrev _ _ h := h
  mode _ _ h := h
  tune _ _ h := h
  rssi _ _ h := h
  timedOut _ _ h := h
  raw _ _ _ h := h
  handle _ _ h := by simpa using h
  hop _ h := h
  cut _ h _ := okVerified_of_resp_none h.2
  fail _ a r _ _ := okVerified_of_status (raiseBusError_resp a r _) (by decide)
  poll _ _ h _ := okVerified_of_resp_none h.2

/-- From the decision on, `LOOP.STEP` has a verified Reading (46_receive_loop.md R257). -/
theorem loopDecide_verified {s : State} (hcfg : s.cfg.wf) :
    (loopDecide s).Sat (fun _ => State.Verified) State.OkVerified := by
  have hhandle : (handle s.drv.rxTimedOut s).cfg.wf ∧ (handle s.drv.rxTimedOut s).Verified :=
    ⟨by simpa using hcfg, handle_verified hcfg _⟩
  unfold loopDecide
  dsimp only
  split
  · exact (verified_closed.hopAndTune hhandle).andThen fun _ _ h => h.2
  · exact hhandle.2

theorem okVerified_finish {r : Res Word} (h : r.Sat (fun _ => State.Verified) State.OkVerified) :
    r.finish.OkVerified :=
  h.finish (fun _ _ hu _ _ => hu) fun _ _ hu _ _ => hu

theorem loopTurn_okVerified {s : State} (hcfg : s.cfg.wf) (hresp : s.resp = none) : (loopTurn s).finish.OkVerified :=
  okVerified_finish <|
    (unanswered_closed.receive s.cfg.dwell.toNat .loopStep ⟨hcfg, hresp⟩).andThen fun _ _ h => loopDecide_verified h.1

theorem resume_okVerified {s : State} (hcfg : s.cfg.wf) (hresp : s.resp = none) (fired : Bool) :
    (resume (.loopStep fired) s).OkVerified :=
  okVerified_finish <|
    (unanswered_closed.pollOnce (.loopStep fired) ⟨hcfg, hresp⟩).andThen fun _ _ h1 =>
    (unanswered_closed.busRead _ h1).andThen fun v _ h2 =>
    (unanswered_closed.receiveTail fired v h2).andThen fun _ _ h3 => loopDecide_verified h3.1

/-- The step that begins a handler command. -/
theorem exec_okVerified {i : Instr} (hi : handlerCommand i = true) {s : State} (hcfg : s.cfg.wf)
    (hresp : s.resp = none) : GoesTo State.OkVerified (exec i s) := by
  have hans : ∀ b v, (respond .ok v (handle b s)).OkVerified := fun b _ _ => handle_verified hcfg b
  have hfault : (refuse .errFault s).OkVerified := okVerified_of_status rfl (by decide)
  have harg : (refuse .errArg s).OkVerified := okVerified_of_status rfl (by decide)
  cases i with
  | hpktI f => exact ⟨_, rfl, judge_cases hfault harg fun _ _ => hans f _⟩
  | hpktR => exact ⟨_, rfl, judge_cases hfault harg fun _ _ => hans _ _⟩
  | loopStep => exact ⟨_, rfl, judge_cases hfault harg fun _ _ => loopTurn_okVerified hcfg hresp⟩
  | _ => cases hi

/-- Of the handler commands only `LOOP.STEP` polls. -/
theorem pollOf_handler {i : Instr} {fired : Bool} {k : Resume} (hi : handlerCommand i = true)
    (hk : pollOf fired i = some k) : k = .loopStep fired := by
  cases i with
  | hpktI f => cases hk
  | hpktR => cases hk
  | loopStep => cases hk; rfl
  | _ => cases hi

theorem turnOf_okVerified {i : Instr} (hi : handlerCommand i = true) {s t : State} (hcfg : s.cfg.wf)
    (hresp : s.resp = none) (h : turnOf i s t) : t.OkVerified ∧ t.cfg = s.cfg := by
  rcases h with hexec | ⟨⟨fired, k, hk, hp⟩, hr, hstep⟩
  · obtain ⟨u, hu, hok⟩ := exec_okVerified hi hcfg hresp
    obtain ⟨w, hw, hcfg', -⟩ := exec_goesPast i s
    cases hu.symm.trans hexec
    cases hw.symm.trans hexec
    exact ⟨hok, hcfg'⟩
  · obtain ⟨hsame, -⟩ := step_advances hstep
    cases (step_of_poll hr hp).symm.trans hstep
    cases pollOf_handler hi hk
    exact ⟨resume_okVerified (s := s.unpresent) hcfg rfl fired, hsame⟩

/-- Settles O33: a turn of a handler command that answers `OK` has been through the handler. -/
theorem validReadingMeansVerifiedAndAddressed : Obligations.ValidReadingMeansVerifiedAndAddressed := by
  unfold Obligations.ValidReadingMeansVerifiedAndAddressed
  intro i s t hcfg hi _ hresp hturn hok hvalid
  obtain ⟨hverified, hsame⟩ := turnOf_okVerified hi hcfg hresp hturn
  rw [← hsame]
  exact hverified hok hvalid

end Sys2Proof.Machine

/-! The opcode map of 30_encoding.md R92 to R97, read in both directions. Each format says once what it makes of the word
of a command (`formatB_wordOf`) and of which word its command is (`encode_of_formatB`); a row of the table is an opcode
and the width of its format's field (`row_holds_iff`). -/

namespace Sys2Proof

/-! ### From the command to the word and back -/

/-- A word is accepted when no bit of its argument is set from `used` up (30_encoding.md R93). -/
theorem unlessReserved_of_zero {w : Command} {used : Nat} (h : argOf w >>> used = 0) (i : Instr) :
    unlessReserved w used i = .ok i := if_pos h

theorem formatZ_wordOf (op : Byte) (i : Instr) : formatZ (wordOf op 0#32) i = .ok i :=
  unlessReserved_of_zero (by simp) i

theorem formatF_wordOf (op : Byte) (c : Bool → Instr) (f : Bool) :
    formatF (wordOf op ((BitVec.ofBool f).setWidth 32)) c = .ok (c f) := by
  rw [formatF, unlessReserved_of_zero (by rw [argOf_wordOf]; exact field_ushiftRight 1 1 (le_refl 1) _)]
  simp

theorem formatB_wordOf (op : Byte) (c : Byte → Instr) (b : Byte) :
    formatB (wordOf op (b.setWidth 32)) c = .ok (c b) := by
  rw [formatB, unlessReserved_of_zero (by rw [argOf_wordOf]; exact field_ushiftRight 8 8 (le_refl 8) b), argOf_wordOf,
    field_extract 8 (by decide)]

theorem formatH_wordOf (op : Byte) (c : Half → Instr) (h : Half) :
    formatH (wordOf op (h.setWidth 32)) c = .ok (c h) := by
  rw [formatH, unlessReserved_of_zero (by rw [argOf_wordOf]; exact field_ushiftRight 16 16 (le_refl 16) h),
    argOf_wordOf, field_extract 16 (by decide)]

/-- The two fields of format IB are the halves of one field of 12 bits (30_encoding.md R93). -/
theorem formatIB_wordOf (op : Byte) (c : BitVec 4 → Byte → Instr) (x : BitVec 4) (b : Byte) :
    formatIB (wordOf op ((x ++ b).setWidth 32)) c = .ok (c x b) := by
  have hx : ((x ++ b).setWidth 32).extractLsb' 8 4 = x :=
    (BitVec.extractLsb'_setWidth_of_le (by decide)).trans BitVec.extractLsb'_append_eq_left
  have hb : ((x ++ b).setWidth 32).extractLsb' 0 8 = b :=
    (BitVec.extractLsb'_setWidth_of_le (by decide)).trans BitVec.extractLsb'_append_eq_right
  rw [formatIB, unlessReserved_of_zero (by rw [argOf_wordOf]; exact field_ushiftRight 12 12 (le_refl 12) _),
    argOf_wordOf, hx, hb]

theorem formatW_wordOf (op : Byte) (c : Word → Instr) (w : Word) : formatW (wordOf op w) c = .ok (c w) := by
  rw [formatW, unlessReserved_of_zero (ushiftRight_all _), argOf_wordOf]

theorem decode_encode (i : Instr) : decode (encode i) = .ok i := by
  cases i with
  | nop | crcFrame | frameNorm | decodeFrame | hpktR | nextHop | syncRegs | setFreqH | receiveD | devReset | loopInit
  | loopStep => simp [encode, decode, formatZ_wordOf]
  | hpktI f | readRssi f => simp [encode, decode, formatF_wordOf]
  | rd b | crcTbl b | crcByte b | bitrev b | planFreq b | planHop b => simp [encode, decode, formatB_wordOf]
  | crcInit h => simp [encode, decode, formatH_wordOf]
  | frameLd x b => simp [encode, decode, formatIB_wordOf]
  | setFreqI w | receiveI w => simp [encode, decode, formatW_wordOf]

/-- Settles O1: each format reads back the operands that were put into the word. -/
theorem decodeOfEncodeIsTheCommand : Obligations.DecodeOfEncodeIsTheCommand := by
  unfold Obligations.DecodeOfEncodeIsTheCommand
  exact decode_encode

/-- Settles O4: the written words are the encodings of their commands. -/
theorem writtenWordsDecode : Obligations.WrittenWordsDecode := by
  unfold Obligations.WrittenWordsDecode
  exact ⟨decode_encode .nop, decode_encode (.rd 0x0C), decode_encode (.crcInit 0), decode_encode (.crcByte 0x81),
    decode_encode (.frameLd 3 0x4C), decode_encode (.hpktI true), decode_encode (.planHop 3),
    decode_encode (.setFreqI 902355835), decode_encode (.readRssi true), decode_encode .loopStep⟩

/-! ### From the word to the command and back -/

/-- An accepted word is the one that encodes its command, when that encoding is the word's opcode and the field of `n`
bits of its argument: the bits above the field are zero. -/
theorem encode_of_unlessReserved {w : Command} {n : Nat} {i j : Instr} (h : unlessReserved w n i = .ok j)
    (henc : encode i = wordOf (opOf w) (((argOf w).extractLsb' 0 n).setWidth 32)) : encode j = w := by
  unfold unlessReserved at h
  split at h
  case isFalse => cases h
  case isTrue hzero =>
    cases h
    have hfield : ((argOf w).extractLsb' 0 n).setWidth 32 = argOf w := by
      apply BitVec.eq_of_getLsbD_eq
      intro k hk
      have hbit : (argOf w >>> n).getLsbD (k - n) = false := by simp [hzero]
      rcases Nat.lt_or_ge k n with hlt | hge
      · simp [hlt, hk]
      · simpa [hge, Nat.not_lt.mpr hge] using hbit.symm
    rw [henc, hfield, wordOf_opOf_argOf]

section
variable {w : Command} {op : Byte} {j : Instr} (hop : (opOf w).toNat = op.toNat)
include hop

theorem encode_of_formatZ {i : Instr} (h : formatZ w i = .ok j) (henc : encode i = wordOf op 0) : encode j = w :=
  encode_of_unlessReserved h (by rw [henc, BitVec.eq_of_toNat_eq hop]; simp)

theorem encode_of_formatF {c : Bool → Instr} (h : formatF w c = .ok j)
    (henc : ∀ f, encode (c f) = wordOf op ((BitVec.ofBool f).setWidth 32)) : encode j = w := by
  have hbit : BitVec.ofBool ((argOf w).getLsbD 0) = (argOf w).extractLsb' 0 1 := by
    apply BitVec.eq_of_getLsbD_eq
    intro k hk
    obtain rfl : k = 0 := by omega
    simp
  exact encode_of_unlessReserved h (by rw [henc, BitVec.eq_of_toNat_eq hop, hbit])

theorem encode_of_formatB {c : Byte → Instr} (h : formatB w c = .ok j)
    (henc : ∀ b, encode (c b) = wordOf op (b.setWidth 32)) : encode j = w :=
  encode_of_unlessReserved h (by rw [henc, BitVec.eq_of_toNat_eq hop])

theorem encode_of_formatH {c : Half → Instr} (h : formatH w c = .ok j)
    (henc : ∀ b, encode (c b) = wordOf op (b.setWidth 32)) : encode j = w :=
  encode_of_unlessReserved h (by rw [henc, BitVec.eq_of_toNat_eq hop])

theorem encode_of_formatIB {c : BitVec 4 → Byte → Instr} (h : formatIB w c = .ok j)
    (henc : ∀ x b, encode (c x b) = wordOf op ((x ++ b).setWidth 32)) : encode j = w := by
  have hfields : (argOf w).extractLsb' 8 4 ++ (argOf w).extractLsb' 0 8 = (argOf w).extractLsb' 0 12 :=
    BitVec.extractLsb'_append_extractLsb'_eq_extractLsb' rfl
  exact encode_of_unlessReserved h (by rw [henc, BitVec.eq_of_toNat_eq hop, hfields])

theorem encode_of_formatW {c : Word → Instr} (h : formatW w c = .ok j) (henc : ∀ v, encode (c v) = wordOf op v) :
    encode j = w :=
  encode_of_unlessReserved h (by rw [henc, BitVec.eq_of_toNat_eq hop]; simp)

end

theorem encode_of_decode {w : Command} {i : Instr} (h : decode w = .ok i) : encode i = w := by
  unfold decode at h
  split at h
  case h_1 hop => exact encode_of_formatZ (op := 0x00) hop h rfl
  case h_2 hop => exact encode_of_formatB (op := 0x01) hop h fun _ => rfl
  case h_3 hop => exact encode_of_formatB (op := 0x10) hop h fun _ => rfl
  case h_4 hop => exact encode_of_formatH (op := 0x11) hop h fun _ => rfl
  case h_5 hop => exact encode_of_formatB (op := 0x12) hop h fun _ => rfl
  case h_6 hop => exact encode_of_formatZ (op := 0x13) hop h rfl
  case h_7 hop => exact encode_of_formatB (op := 0x20) hop h fun _ => rfl
  case h_8 hop => exact encode_of_formatIB (op := 0x21) hop h fun _ _ => rfl
  case h_9 hop => exact encode_of_formatZ (op := 0x22) hop h rfl
  case h_10 hop => exact encode_of_formatZ (op := 0x23) hop h rfl
  case h_11 hop => exact encode_of_formatF (op := 0x30) hop h fun _ => rfl
  case h_12 hop => exact encode_of_formatZ (op := 0x31) hop h rfl
  case h_13 hop => exact encode_of_formatB (op := 0x40) hop h fun _ => rfl
  case h_14 hop => exact encode_of_formatB (op := 0x41) hop h fun _ => rfl
  case h_15 hop => exact encode_of_formatZ (op := 0x42) hop h rfl
  case h_16 hop => exact encode_of_formatZ (op := 0x50) hop h rfl
  case h_17 hop => exact encode_of_formatW (op := 0x51) hop h fun _ => rfl
  case h_18 hop => exact encode_of_formatZ (op := 0x52) hop h rfl
  case h_19 hop => exact encode_of_formatW (op := 0x53) hop h fun _ => rfl
  case h_20 hop => exact encode_of_formatZ (op := 0x54) hop h rfl
  case h_21 hop => exact encode_of_formatZ (op := 0x55) hop h rfl
  case h_22 hop => exact encode_of_formatF (op := 0x60) hop h fun _ => rfl
  case h_23 hop => exact encode_of_formatZ (op := 0x70) hop h rfl
  case h_24 hop => exact encode_of_formatZ (op := 0x71) hop h rfl
  case h_25 => cases h

/-- Settles O2: an opcode of the map fixes the high byte, its format the reserved bits, the command the rest. -/
theorem decodedWordIsItsEncoding : Obligations.DecodedWordIsItsEncoding := by
  unfold Obligations.DecodedWordIsItsEncoding
  exact fun _ _ => encode_of_decode

/-! ### The rows of the table -/

/-- The opcode of a command (30_encoding.md R97). -/
def Instr.opcode : Instr → Byte
  | .nop => 0x00
  | .rd _ => 0x01
  | .crcTbl _ => 0x10
  | .crcInit _ => 0x11
  | .crcByte _ => 0x12
  | .crcFrame => 0x13
  | .bitrev _ => 0x20
  | .frameLd _ _ => 0x21
  | .frameNorm => 0x22
  | .decodeFrame => 0x23
  | .hpktI _ => 0x30
  | .hpktR => 0x31
  | .planFreq _ => 0x40
  | .planHop _ => 0x41
  | .nextHop => 0x42
  | .syncRegs => 0x50
  | .setFreqI _ => 0x51
  | .setFreqH => 0x52
  | .receiveI _ => 0x53
  | .receiveD => 0x54
  | .devReset => 0x55
  | .readRssi _ => 0x60
  | .loopInit => 0x70
  | .loopStep => 0x71

/-- How many low bits of `arg` the format of a command uses (30_encoding.md R93). -/
def Instr.fieldBits : Instr → Nat
  | .nop | .crcFrame | .frameNorm | .decodeFrame | .hpktR | .nextHop | .syncRegs | .setFreqH | .receiveD | .devReset
  | .loopInit | .loopStep => 0
  | .hpktI _ | .readRssi _ => 1
  | .rd _ | .crcTbl _ | .crcByte _ | .bitrev _ | .planFreq _ | .planHop _ => 8
  | .frameLd _ _ => 12
  | .crcInit _ => 16
  | .setFreqI _ | .receiveI _ => 32

/-- The row that fixes an opcode and reserves the bits of `arg` from `n` up. -/
def rowOf (op : Byte) (n : Nat) : TableRow :=
  { fixed := wordOf op 0, mask := wordOf 0xFF (BitVec.allOnes 32 <<< n) }

theorem row_eq (i : Instr) : i.row = rowOf i.opcode i.fieldBits := by
  cases i <;> simp only [Instr.row, Instr.opcode, Instr.fieldBits] <;> decide

theorem wordOf_inj {op op' : Byte} {arg arg' : Word} : wordOf op arg = wordOf op' arg' ↔ op = op' ∧ arg = arg' := by
  refine ⟨fun h => ⟨?_, ?_⟩, fun ⟨hop, harg⟩ => hop ▸ harg ▸ rfl⟩
  · simpa using congrArg opOf h
  · simpa using congrArg argOf h

/-- No bit under a mask of the bits from `n` up is no bit after a shift by `n`. -/
theorem and_shiftLeft_allOnes_eq_zero_iff {m : Nat} (x : BitVec m) (n : Nat) :
    x &&& (BitVec.allOnes m <<< n) = 0 ↔ x >>> n = 0 := by
  constructor
  · intro h
    apply BitVec.eq_of_getLsbD_eq
    intro k hk
    have hbit : (x &&& (BitVec.allOnes m <<< n)).getLsbD (n + k) = false := by simp [h]
    rcases Nat.lt_or_ge (n + k) m with hlt | hge
    · simpa [hlt, hk] using hbit
    · simp [BitVec.getLsbD_of_ge x _ hge]
  · intro h
    apply BitVec.eq_of_getLsbD_eq
    intro k hk
    have hbit : (x >>> n).getLsbD (k - n) = false := by simp [h]
    rcases Nat.lt_or_ge k n with hlt | hge
    · simp [hlt]
    · have hk : x.getLsbD k = false := by simpa [hge] using hbit
      simp [hk]

/-- A word holds a row exactly when it has the row's opcode and no reserved bit of its format. -/
theorem row_holds_iff (w : Command) (i : Instr) :
    w &&& i.row.mask = i.row.fixed ↔ opOf w = i.opcode ∧ argOf w >>> i.fieldBits = 0 := by
  have hop : opOf w &&& 0xFF = opOf w := BitVec.and_allOnes
  have hw : w &&& i.row.mask = wordOf (opOf w) (argOf w &&& (BitVec.allOnes 32 <<< i.fieldBits)) := by
    rw [row_eq i]
    conv_lhs => rw [rowOf, ← wordOf_opOf_argOf w, wordOf_and, hop]
  rw [hw, row_eq i, rowOf, wordOf_inj, and_shiftLeft_allOnes_eq_zero_iff]

/-- A word with the opcode of a command and no reserved bit of its format decodes, to a command of that row. -/
theorem decode_row {w : Command} {i : Instr} (hop : opOf w = i.opcode) (harg : argOf w >>> i.fieldBits = 0) :
    (decode w).map Instr.row = .ok i.row := by
  unfold decode
  rw [hop]
  cases i <;> exact congrArg (Except.map Instr.row) (unlessReserved_of_zero harg _)

theorem encode_holds_row (i : Instr) : encode i &&& i.row.mask = i.row.fixed := by
  refine eq_of_beq (?_ : i.row.holds (encode i) = true)
  cases i with
  | nop => exact Laws.EncodeInRow.nop
  | rd b => exact Laws.EncodeInRow.rd b
  | crcTbl b => exact Laws.EncodeInRow.crcTbl b
  | crcInit h => exact Laws.EncodeInRow.crcInit h
  | crcByte b => exact Laws.EncodeInRow.crcByte b
  | crcFrame => exact Laws.EncodeInRow.crcFrame
  | bitrev b => exact Laws.EncodeInRow.bitrev b
  | frameLd x b => exact Laws.EncodeInRow.frameLd x b
  | frameNorm => exact Laws.EncodeInRow.frameNorm
  | decodeFrame => exact Laws.EncodeInRow.decodeFrame
  | hpktI f => exact Laws.EncodeInRow.hpktI f
  | hpktR => exact Laws.EncodeInRow.hpktR
  | planFreq b => exact Laws.EncodeInRow.planFreq b
  | planHop b => exact Laws.EncodeInRow.planHop b
  | nextHop => exact Laws.EncodeInRow.nextHop
  | syncRegs => exact Laws.EncodeInRow.syncRegs
  | setFreqI w => exact Laws.EncodeInRow.setFreqI w
  | setFreqH => exact Laws.EncodeInRow.setFreqH
  | receiveI w => exact Laws.EncodeInRow.receiveI w
  | receiveD => exact Laws.EncodeInRow.receiveD
  | devReset => exact Laws.EncodeInRow.devReset
  | readRssi f => exact Laws.EncodeInRow.readRssi f
  | loopInit => exact Laws.EncodeInRow.loopInit
  | loopStep => exact Laws.EncodeInRow.loopStep

/-- A word holds the row of a command exactly when it decodes to a command of that row. -/
theorem row_holds_iff_decode (w : Command) (i : Instr) :
    w &&& i.row.mask = i.row.fixed ↔ ∃ j, decode w = .ok j ∧ j.row = i.row := by
  constructor
  · intro h
    obtain ⟨hop, harg⟩ := (row_holds_iff w i).mp h
    have hrow := decode_row hop harg
    cases hdec : decode w with
    | ok j => exact ⟨j, rfl, by simpa [hdec, Except.map] using hrow⟩
    | error e => simp [hdec, Except.map] at hrow
  · rintro ⟨j, hdec, hrow⟩
    rw [← hrow, ← encode_of_decode hdec]
    exact encode_holds_row j

/-- A command of each row, in the order of the table (30_encoding.md R97). -/
def commandOfEachRow : List Instr :=
  [.nop, .rd 0, .crcTbl 0, .crcInit 0, .crcByte 0, .crcFrame, .bitrev 0, .frameLd 0 0, .frameNorm, .decodeFrame,
    .hpktI false, .hpktR, .planFreq 0, .planHop 0, .nextHop, .syncRegs, .setFreqI 0, .setFreqH, .receiveI 0, .receiveD,
    .devReset, .readRssi false, .loopInit, .loopStep]

theorem opcodeTable_eq : opcodeTable = commandOfEachRow.map Instr.row := rfl

/-- Every row of the table is the row of a command. -/
theorem exists_row_of_mem {r : TableRow} (hr : r ∈ opcodeTable) : ∃ i : Instr, i.row = r := by
  rw [opcodeTable_eq] at hr
  obtain ⟨i, -, hi⟩ := List.mem_map.mp hr
  exact ⟨i, hi⟩

theorem row_mem_opcodeTable (i : Instr) : i.row ∈ opcodeTable := by
  cases i <;> simp [Instr.row, opcodeTable]

theorem mem_holds_iff_decode (w : Command) {r : TableRow} (hr : r ∈ opcodeTable) :
    w &&& r.mask = r.fixed ↔ ∃ i, decode w = .ok i ∧ i.row = r := by
  obtain ⟨i, rfl⟩ := exists_row_of_mem hr
  exact row_holds_iff_decode w i

/-- A word that holds two rows decodes to a command of both, so they are one row. -/
theorem eq_of_both_hold {w : Command} {r q : TableRow} (hr : r ∈ opcodeTable) (hq : q ∈ opcodeTable)
    (hwr : w &&& r.mask = r.fixed) (hwq : w &&& q.mask = q.fixed) : r = q := by
  obtain ⟨i, hi, rfl⟩ := (mem_holds_iff_decode w hr).mp hwr
  obtain ⟨j, hj, rfl⟩ := (mem_holds_iff_decode w hq).mp hwq
  cases hi.symm.trans hj
  rfl

theorem opcodeTable_nodup : opcodeTable.Nodup := by decide

/-- Settles O3: a row that a word holds is the row of the command it decodes to, so no word holds two. -/
theorem wordIsTheCommandOfARowExactlyWhenItMatches : Obligations.WordIsTheCommandOfARowExactlyWhenItMatches := by
  unfold Obligations.WordIsTheCommandOfARowExactlyWhenItMatches
  refine ⟨fun w _ hr => mem_holds_iff_decode w hr, row_mem_opcodeTable, ?_⟩
  exact opcodeTable_nodup.imp_of_mem fun hr hq hne _ ⟨hwr, hwq⟩ => hne (eq_of_both_hold hr hq hwr hwq)

end Sys2Proof

/-! What the command port does with a word (30_encoding.md R90, R91, R96): a word that decodes runs its command, any
other word answers `ERR_ILLEGAL`. -/

namespace Sys2Proof.Machine

open Sys2Proof.Spec

section
variable {s : State} {w : Command} {rest : List HostInput} (hphase : s.phase = .idle) (hr : s.rstIn ≠ some 0)
  (hhost : s.host = .cmd w :: rest)
include hphase hr hhost

/-- A word that decodes runs its command in the state that accepted it. -/
theorem step_of_decode {i : Instr} (hdec : decode w = .ok i) : step s = exec i (s.accept rest) := by
  simp [step, fetch, fetchIdle, hphase, hr, hhost, hdec]

/-- A word that does not decode is refused. -/
theorem step_of_reject {e : DecodeReject} (hdec : decode w = .error e) :
    step s = .next (refuse .errIllegal (s.accept rest)) := by
  simp [step, fetch, fetchIdle, hphase, hr, hhost, hdec]

end

/-- Settles O5: the accepting state is `State.accept`. -/
theorem stepRunsTheDecodedCommand : Obligations.StepRunsTheDecodedCommand := by
  unfold Obligations.StepRunsTheDecodedCommand
  exact fun _ _ _ _ hphase hr hhost hdec => step_of_decode hphase hr hhost hdec

/-- The 40 bits of a command word are the word. -/
theorem withFetchWord_toNat (s : State) (w : Command) : s.withFetchWord 40 w.toNat = s.present w := by
  rw [State.withFetchWord, Nat.mod_eq_of_lt w.isLt, BitVec.ofNat_toNat, BitVec.setWidth_eq]

/-- Settles O6: the port is ready for the presented word, which decodes to its command. -/
theorem presentedCommandRuns : Obligations.PresentedCommandRuns := by
  unfold Obligations.PresentedCommandRuns
  intro s i
  rw [withFetchWord_toNat]
  exact step_of_decode (s := s.present (encode i)) rfl nofun rfl (decode_encode i)

/-- A word that holds no row of the table is no command. -/
theorem decode_error_of_no_row {w : Command} (h : ∀ r ∈ opcodeTable, w &&& r.mask ≠ r.fixed) :
    ∃ e, decode w = .error e := by
  cases hdec : decode w with
  | ok i => exact absurd ((row_holds_iff_decode w i).mpr ⟨i, hdec, rfl⟩) (h i.row (row_mem_opcodeTable i))
  | error e => exact ⟨e, rfl⟩

/-- Settles O7: the word decodes to nothing, so the port refuses it. -/
theorem illegalWordAnswersErrIllegal : Obligations.IllegalWordAnswersErrIllegal := by
  unfold Obligations.IllegalWordAnswersErrIllegal
  intro s w rest hphase hr hhost hrows
  obtain ⟨e, hdec⟩ := decode_error_of_no_row hrows
  exact step_of_reject hphase hr hhost hdec

end Sys2Proof.Machine

/-! The argument ranges (30_encoding.md R98). Each range is the Boolean that the command is judged by; out of it the
judgement answers `ERR_ARG`, in it no piece of a command does (`notErrArg_closed`). -/

namespace Sys2Proof.Machine

open Sys2Proof.Spec

/-! ### The ranges -/

theorem rdInRange_iff (c : Config) (r : Byte) : c.rdInRange r = true ↔ registerNumber c r.toNat := by
  simp [Config.rdInRange, registerNumber, or_assoc]

theorem frameIndexInRange_iff (c : Config) (i : BitVec 4) : c.frameIndexInRange i = true ↔ i.toNat < c.frameLen :=
  decide_eq_true_iff

theorem planInRange_iff (c : Config) (b : Byte) : c.planInRange b = true ↔ b.toNat < c.channels :=
  decide_eq_true_iff

theorem freqInRange_iff (c : Config) (hz : Word) : c.freqInRange hz = true ↔ frequencyWord c hz < 2 ^ 24 :=
  decide_eq_true_iff

/-! ### An argument out of its range -/

theorem next_judge_of_outOfRange {s run : State} {argOk : Bool} {p : Prop} (hp : argOk = true ↔ p) (hout : ¬ p)
    (hf : s.flt.fault = false) :
    (.next (judge s argOk run) : Host.Outcome State Fault Refusal) = .next (ended .errArg 0 s) := by
  have hbad : argOk = false := by simpa [← hp] using hout
  rw [hbad, judge_of_badArg hf]
  rfl

theorem next_judgeInFault_of_outOfRange {s run : State} {argOk : Bool} {p : Prop} (hp : argOk = true ↔ p)
    (hout : ¬ p) :
    (.next (judgeInFault s argOk run) : Host.Outcome State Fault Refusal) = .next (ended .errArg 0 s) := by
  have hbad : argOk = false := by simpa [← hp] using hout
  rw [hbad]
  rfl

/-- `RD` is judged in the fault state too, the other commands with a range outside it only. -/
theorem exec_of_argument_outOfRange {i : Instr} {s : State} (hf : s.flt.fault = false ∨ ∃ r, i = .rd r)
    (hout : ¬ argumentInRange s i) : exec i s = .next (ended .errArg 0 s) := by
  cases i with
  | rd r => exact next_judgeInFault_of_outOfRange (rdInRange_iff s.cfg r) hout
  | frameLd x b => exact next_judge_of_outOfRange (frameIndexInRange_iff s.cfg x) hout (hf.resolve_right nofun)
  | planFreq b => exact next_judge_of_outOfRange (planInRange_iff s.cfg b) hout (hf.resolve_right nofun)
  | planHop b => exact next_judge_of_outOfRange (planInRange_iff s.cfg b) hout (hf.resolve_right nofun)
  | setFreqI w => exact next_judge_of_outOfRange (freqInRange_iff s.cfg w) hout (hf.resolve_right nofun)
  | setFreqH => exact next_judge_of_outOfRange (freqInRange_iff s.cfg _) hout (hf.resolve_right nofun)
  | loopInit => exact next_judge_of_outOfRange (freqInRange_iff s.cfg s.nextFreq) hout (hf.resolve_right nofun)
  | loopStep => exact next_judge_of_outOfRange (freqInRange_iff s.cfg s.nextFreq) hout (hf.resolve_right nofun)
  | _ => exact absurd trivial hout

/-! ### An argument in its range -/

/-- The presented response, if any, is not `ERR_ARG` (30_encoding.md R95). -/
def State.NotErrArg (s : State) : Prop := ∀ v, s.resp ≠ some { status := .errArg, result := v }

theorem notErrArg_of_status {s : State} {st : Status} {v : Word} (h : s.resp = some { status := st, result := v })
    (hst : st ≠ .errArg) : s.NotErrArg := by
  intro w hw
  simp only [h, Option.some.injEq, Response.mk.injEq] at hw
  exact hst hw.1

theorem notErrArg_ok (v : Word) (s : State) : (respond .ok v s).NotErrArg := notErrArg_of_status rfl nofun

/-- No piece of a bus command presents `ERR_ARG`. -/
theorem notErrArg_closed : Closed State.NotErrArg State.NotErrArg where
  event _ _ _ _ h := h
  issue _ h := h
  phase _ _ h := h
  irqPrev _ _ h := h
  mode _ _ h := h
  tune _ _ h := h
  rssi _ _ h := h
  timedOut _ _ h := h
  raw _ _ _ h := h
  handle _ _ h := by simpa [State.NotErrArg] using h
  hop _ h := h
  cut _ h _ := h
  fail _ a r _ _ := notErrArg_of_status (raiseBusError_resp a r _) nofun
  poll _ _ h _ := h

theorem notErrArg_finish {r : Res Word} (h : r.Sat (fun _ => State.NotErrArg) State.NotErrArg) : r.finish.NotErrArg :=
  h.finish (fun _ _ hu _ => hu) fun v u _ _ => notErrArg_ok v u

theorem notErrArg_finish_answer {α : Type} {r : Res α} {v : α → State → Word}
    (h : r.Sat (fun _ => State.NotErrArg) State.NotErrArg) :
    (r.andThen fun a u => .ok (v a u) u).finish.NotErrArg :=
  notErrArg_finish (h.andThen fun _ _ hu => hu)

theorem notErrArg_deviceReset {s : State} (h : s.NotErrArg) :
    (deviceReset s).Sat (fun _ => State.NotErrArg) State.NotErrArg :=
  notErrArg_closed.deviceReset (H := State.NotErrArg) (fun _ h => h) (fun _ _ _ _ h => h) (fun _ h _ => h)
    (fun _ h => h) h

/-- A command judged with its argument in range is refused in fault, or runs. -/
theorem judge_notErrArg {s run : State} {argOk : Bool} (hok : argOk = true) (hrun : run.NotErrArg) :
    GoesTo State.NotErrArg (.next (judge s argOk run)) := by
  refine ⟨_, rfl, ?_⟩
  subst hok
  cases hf : s.flt.fault with
  | true => rw [judge_of_fault hf]; exact notErrArg_of_status rfl nofun
  | false => rw [judge_of_clear hf]; exact hrun

theorem readHostReg_notErrArg (r : Byte) (s : State) : (readHostReg r s).NotErrArg := by
  unfold readHostReg
  split <;> exact notErrArg_ok _ _

theorem exec_notErrArg {i : Instr} {s : State} (harg : argumentInRange s i) (h : s.NotErrArg) :
    GoesTo State.NotErrArg (exec i s) := by
  have C := notErrArg_closed
  cases i with
  | nop => exact ⟨_, rfl, notErrArg_ok _ _⟩
  | rd r =>
    have hrun : judgeInFault s (s.cfg.rdInRange r) (readHostReg r s) = readHostReg r s :=
      if_pos ((rdInRange_iff s.cfg r).mpr harg)
    exact ⟨_, rfl, by rw [hrun]; exact readHostReg_notErrArg r s⟩
  | crcTbl | crcInit | crcByte | crcFrame | bitrev | frameNorm | decodeFrame | hpktI | hpktR | nextHop =>
    exact judge_notErrArg rfl (notErrArg_ok _ _)
  | frameLd x b => exact judge_notErrArg ((frameIndexInRange_iff s.cfg x).mpr harg) (notErrArg_ok _ _)
  | planFreq b => exact judge_notErrArg ((planInRange_iff s.cfg b).mpr harg) (notErrArg_ok _ _)
  | planHop b => exact judge_notErrArg ((planInRange_iff s.cfg b).mpr harg) (notErrArg_ok _ _)
  | syncRegs => exact judge_notErrArg rfl (notErrArg_finish_answer (C.push h))
  | setFreqI w =>
    exact judge_notErrArg ((freqInRange_iff s.cfg w).mpr harg) (notErrArg_finish_answer (C.setFrequency w h))
  | setFreqH =>
    exact judge_notErrArg ((freqInRange_iff s.cfg _).mpr harg) (notErrArg_finish_answer (C.setFrequency _ h))
  | receiveI w => exact judge_notErrArg rfl (notErrArg_finish_answer (C.receive w.toNat .receive h))
  | receiveD => exact judge_notErrArg rfl (notErrArg_finish_answer (C.receive _ .receive h))
  | devReset => exact judge_notErrArg rfl (notErrArg_finish_answer (notErrArg_deviceReset h))
  | readRssi f =>
    exact judge_notErrArg rfl (notErrArg_finish ((C.sampleRssi f .readRssi h).andThen fun v u hu => C.rssi u v hu))
  | loopInit =>
    exact judge_notErrArg ((freqInRange_iff s.cfg s.nextFreq).mpr harg) (notErrArg_finish_answer (C.hopAndTune h))
  | loopStep =>
    exact judge_notErrArg ((freqInRange_iff s.cfg s.nextFreq).mpr harg)
      (notErrArg_finish ((C.receive _ .loopStep h).andThen fun _ _ hu => C.loopDecide hu))

/-- Settles O8: the judgement refuses an argument out of its range, and nothing else of a command answers `ERR_ARG`. -/
theorem onlyAnArgumentOutOfRangeAnswersErrArg : Obligations.OnlyAnArgumentOutOfRangeAnswersErrArg := by
  unfold Obligations.OnlyAnArgumentOutOfRangeAnswersErrArg
  intro i s hf
  refine ⟨exec_of_argument_outOfRange hf, fun harg hresp t ht => ?_⟩
  obtain ⟨u, hu, hnot⟩ := exec_notErrArg harg (show s.NotErrArg by simp [State.NotErrArg, hresp])
  cases hu.symm.trans ht
  exact hnot

end Sys2Proof.Machine

/-! How a command ends while `rst_n` stays high (30_encoding.md R90, 45_rssi.md R250). `Running s t` says that `t` is inside
a command begun in `s`; every piece of a command stays there, answers, or stops in the poll it names (`EndsIn`). -/

namespace Sys2Proof.Machine

open Sys2Proof.Spec

/-- Inside a command begun in `s`, with `rst_n` high: nothing has been answered. -/
structure Running (s t : State) : Prop where
  rstIn : t.rstIn = none
  resp : t.resp = s.resp
  cfg : t.cfg = s.cfg

/-- The command is over with a response (30_encoding.md R90). -/
def State.Answered (t : State) : Prop := t.phase = .idle ∧ ∃ r, t.resp = some r

/-- How a command begun in `s` can leave the machine: answered, or unanswered in one of the polls `K`. -/
def EndsIn (s : State) (K : Resume → Prop) (t : State) : Prop :=
  t.Answered ∨ ∃ k, K k ∧ t.phase = .pollRssi k ∧ t.resp = s.resp

theorem answered_respond (st : Status) (v : Word) (t : State) : (respond st v t).Answered := ⟨rfl, _, rfl⟩

theorem answered_raiseBusError (a : Byte) (r : Bool) (t : State) : (raiseBusError a r t).Answered := ⟨rfl, _, rfl⟩

namespace Running

variable {s t : State} {K : Resume → Prop}

theorem refl (hr : s.rstIn = none) : Running s s := ⟨hr, rfl, rfl⟩

/-! ### Updates -/

theorem passEvent (h : Running s t) (ev : Event) (e : Env) : Running s (t.passEvent ev e) :=
  { h with rstIn := by simp [h.rstIn] }

theorem afterRead (h : Running s t) (a : Byte) : Running s (t.afterRead a) := { h with rstIn := by simp [h.rstIn] }

theorem afterWrite (h : Running s t) (a v : Byte) : Running s (t.afterWrite a v) :=
  { h with rstIn := by simp [h.rstIn] }

theorem handle (h : Running s t) (b : Bool) : Running s (handle b t) :=
  ⟨by simpa using h.rstIn, by simpa using h.resp, by simpa using h.cfg⟩

/-! ### Transactions -/

theorem busRead (h : Running s t) (a : Byte) : (busRead a t).Sat (fun _ => Running s) (EndsIn s K) := by
  cases hok : t.env.nextAnswer.ok with
  | true => rw [busRead_ok h.rstIn hok]; exact h.afterRead a
  | false => rw [busRead_fail h.rstIn hok]; exact .inl (answered_raiseBusError a true _)

theorem busWrite (h : Running s t) (a v : Byte) : (busWrite a v t).Sat (fun _ => Running s) (EndsIn s K) := by
  cases hok : t.env.nextAnswer.ok with
  | true => rw [busWrite_ok h.rstIn hok]; exact h.afterWrite a v
  | false => rw [busWrite_fail h.rstIn hok]; exact .inl (answered_raiseBusError a false _)

theorem writeSlots (ks : List Nat) (h : Running s t) : (writeSlots ks t).Sat (fun _ => Running s) (EndsIn s K) := by
  induction ks generalizing t with
  | nil => exact h
  | cons k ks ih => exact (h.busWrite _ _).andThen fun _ _ h' => ih h'

theorem push (h : Running s t) : (push t).Sat (fun _ => Running s) (EndsIn s K) := writeSlots _ h

theorem readPayload (is : List Nat) (h : Running s t) : (readPayload is t).Sat (fun _ => Running s) (EndsIn s K) := by
  induction is generalizing t with
  | nil => exact h
  | cons i is ih => exact (h.busRead _).andThen fun b u h' => ih (t := u.setRaw i b) { h' with }

/-! ### The poll -/

/-- One read of the poll: it fails, shows a ready bit, or leaves the command in the poll it names. -/
theorem pollOnce (h : Running s t) {k : Resume} (hk : K k) : (pollOnce k t).Sat (fun _ => Running s) (EndsIn s K) := by
  cases hok : t.env.nextAnswer.ok with
  | false =>
    rw [Machine.pollOnce, busRead_fail (by simpa using h.rstIn) (by simpa using hok)]
    exact .inl (answered_raiseBusError _ true _)
  | true =>
    by_cases hready : t.env.nextAnswer.data &&& t.cfg.rssiDone = 0
    · rw [pollOnce_waiting k h.rstIn hok hready]
      exact .inr ⟨k, hk, rfl, h.resp⟩
    · rw [pollOnce_ready k h.rstIn hok hready]
      exact { h with }

/-- The sampler polls only when it triggers (45_rssi.md R249). -/
theorem sampleRssi (h : Running s t) (trigger : Bool) {k : Resume} (hk : trigger = true → K k) :
    (sampleRssi trigger k t).Sat (fun _ => Running s) (EndsIn s K) := by
  cases trigger with
  | false => exact h.busRead _
  | true =>
    exact (h.busWrite _ _).andThen fun _ _ h1 => (h1.pollOnce (hk rfl)).andThen fun _ _ h2 => h2.busRead _

/-! ### Tuning, receiving, device reset -/

theorem setFrequency (h : Running s t) (hz : Word) : (setFrequency hz t).Sat (fun _ => Running s) (EndsIn s K) :=
  push (t := tuneMirror hz t) { h with }

theorem waitIrq (h : Running s t) (timeout : Nat) : (waitIrq timeout t).Sat (fun _ => Running s) (EndsIn s K) := by
  rw [waitIrq_ok timeout h.rstIn]
  exact { h with }

theorem receiveTail (h : Running s t) (fired : Bool) (v : Byte) :
    (receiveTail fired v t).Sat (fun _ => Running s) (EndsIn s K) := by
  refine (push (t := setMode t.cfg.modeStandby (t.setRssi v)) { h with }).andThen fun _ u hu => ?_
  cases fired with
  | false => exact { hu with }
  | true => exact (readPayload _ hu).andThen fun _ _ h' => { h' with }

theorem receive (h : Running s t) (timeout : Nat) {k : Bool → Resume}
    (hk : s.cfg.rxRssiTrigger = true → ∀ fired, K (k fired)) :
    (receive timeout k t).Sat (fun _ => Running s) (EndsIn s K) := by
  have hwait : (receiveWait timeout t).Sat (fun _ => Running s) (EndsIn s K) :=
    (push (t := setMode t.cfg.modeRx t) { h with }).andThen fun _ _ h' => h'.waitIrq timeout
  exact hwait.andThen fun fired u hu =>
    (hu.sampleRssi _ fun htrigger => hk (hu.cfg ▸ htrigger) fired).andThen fun v _ h' => h'.receiveTail fired v

theorem hopAndTune (h : Running s t) : (hopAndTune t).Sat (fun _ => Running s) (EndsIn s K) :=
  setFrequency (t := nextHop t) { h with } _

theorem loopDecide (h : Running s t) : (loopDecide t).Sat (fun _ => Running s) (EndsIn s K) := by
  have hh := h.handle t.drv.rxTimedOut
  unfold Machine.loopDecide
  dsimp only
  split
  · exact hh.hopAndTune.andThen fun _ _ h' => h'
  · exact hh

theorem delay (h : Running s t) (ticks : Nat) : (delay ticks t).Sat (fun _ => Running s) (EndsIn s K) := by
  rw [Machine.delay, unlessReset_of_none h.rstIn]
  exact h.passEvent _ _

theorem driveReset (h : Running s t) (level : Bool) (p : Phase) :
    (driveReset level p t).Sat (fun _ => Running s) (EndsIn s K) := by
  rw [Machine.driveReset, unlessReset_of_none h.rstIn]
  exact { h.passEvent (.rst level) t.env with }

theorem deviceReset (h : Running s t) : (deviceReset t).Sat (fun _ => Running s) (EndsIn s K) :=
  (h.driveReset true _).andThen fun _ _ h1 => (h1.delay _).andThen fun _ _ h2 =>
    (h2.driveReset false _).andThen fun _ _ h3 => (h3.delay _).andThen fun _ u h4 => push (t := u.enter .run) { h4 with }

/-- What follows the poll never polls again. -/
theorem afterRssi (h : Running s t) (k : Resume) (v : Byte) :
    (afterRssi k v t).Sat (fun _ => Running s) (EndsIn s K) := by
  cases k with
  | readRssi => exact { h with }
  | receive fired => exact (h.receiveTail fired v).andThen fun _ _ h' => h'
  | loopStep fired => exact (h.receiveTail fired v).andThen fun _ _ h' => h'.loopDecide

end Running

/-! ### Ends of commands -/

section
variable {s : State} {K : Resume → Prop}

/-- With `rst_n` high a command that goes through answers. -/
theorem endsIn_finish {r : Res Word} (h : r.Sat (fun _ => Running s) (EndsIn s K)) : EndsIn s K r.finish :=
  h.finish (fun _ _ hu hcut => by simp [hu.rstIn] at hcut) fun _ _ _ _ => .inl (answered_respond _ _ _)

theorem endsIn_finish_answer {α : Type} {r : Res α} {v : α → State → Word}
    (h : r.Sat (fun _ => Running s) (EndsIn s K)) : EndsIn s K (r.andThen fun a u => .ok (v a u) u).finish :=
  endsIn_finish (h.andThen fun _ _ hu => hu)

theorem endsIn_resume (hr : s.rstIn = none) {k : Resume} (hk : K k) : EndsIn s K (resume k s) :=
  endsIn_finish <| ((Running.refl hr).pollOnce hk).andThen fun _ _ h1 => (h1.busRead _).andThen fun v _ h2 =>
    h2.afterRssi k v

/-- A judged command: refused with an answer, or run. -/
theorem judge_endsIn {run : State} {argOk : Bool} (hrun : EndsIn s K run) :
    GoesTo (EndsIn s K) (.next (judge s argOk run)) :=
  judge_goesTo (fun _ => .inl (answered_respond _ _ _)) fun _ => hrun

theorem readHostReg_answered (r : Byte) (s : State) : (readHostReg r s).Answered := by
  unfold readHostReg
  split <;> exact answered_respond _ _ _

end

/-- The poll of a command, when it is one that polls (45_rssi.md R246, R250). -/
def OwnPoll (i : Instr) (s : State) (k : Resume) : Prop :=
  (i = .readRssi true ∨ (receiveCommandOf i = true ∧ s.cfg.rxRssiTrigger = true)) ∧ ∃ fired, pollOf fired i = some k

/-- With `rst_n` high every command goes on, and has answered or is in its own poll. -/
theorem exec_endsIn {s : State} (hr : s.rstIn = none) (i : Instr) : GoesTo (EndsIn s (OwnPoll i s)) (exec i s) := by
  have h := Running.refl hr
  have hans : ∀ {K : Resume → Prop} {st v t}, EndsIn s K (respond st v t) := .inl (answered_respond _ _ _)
  cases i with
  | nop => exact judgeInFault_goesTo (fun _ => hans) hans
  | rd r => exact judgeInFault_goesTo (fun _ => hans) (.inl (readHostReg_answered r s))
  | crcTbl | crcInit | crcByte | crcFrame | bitrev | frameLd | frameNorm | decodeFrame | hpktI | hpktR | planFreq
  | planHop | nextHop => exact judge_endsIn hans
  | syncRegs => exact judge_endsIn (endsIn_finish_answer h.push)
  | setFreqI w => exact judge_endsIn (endsIn_finish_answer (h.setFrequency w))
  | setFreqH => exact judge_endsIn (endsIn_finish_answer (h.setFrequency _))
  | receiveI w =>
    exact judge_endsIn (endsIn_finish_answer (h.receive _ fun ht fired => ⟨.inr ⟨rfl, ht⟩, fired, rfl⟩))
  | receiveD =>
    exact judge_endsIn (endsIn_finish_answer (h.receive _ fun ht fired => ⟨.inr ⟨rfl, ht⟩, fired, rfl⟩))
  | devReset => exact judge_endsIn (endsIn_finish_answer h.deviceReset)
  | readRssi f =>
    have hpoll : f = true → OwnPoll (.readRssi f) s .readRssi := by
      rintro rfl
      exact ⟨.inl rfl, false, rfl⟩
    exact judge_endsIn (endsIn_finish ((h.sampleRssi f hpoll).andThen fun _ _ hu => { hu with }))
  | loopInit => exact judge_endsIn (endsIn_finish_answer h.hopAndTune)
  | loopStep =>
    exact judge_endsIn (endsIn_finish
      ((h.receive _ fun ht fired => ⟨.inr ⟨rfl, ht⟩, fired, rfl⟩).andThen fun _ _ hu => hu.loopDecide))

/-- Settles O57: the first step by `exec_endsIn`, a later turn of the poll by `endsIn_resume`. -/
theorem everyCommandAnswersUnlessItPolls : Obligations.EveryCommandAnswersUnlessItPolls := by
  unfold Obligations.EveryCommandAnswersUnlessItPolls
  constructor
  · intro i s hr
    obtain ⟨t, ht, hans | ⟨k, ⟨hpolls, fired, hk⟩, hphase, hresp⟩⟩ := exec_endsIn hr i
    · exact ⟨t, ht, .inl hans⟩
    · exact ⟨t, ht, .inr ⟨hpolls, ⟨fired, k, hk, hphase⟩, hresp⟩⟩
  · intro s k hr hphase
    refine ⟨_, step_of_poll (by simp [hr]) hphase, ?_⟩
    rcases endsIn_resume (s := s.unpresent) (K := (· = k)) hr rfl with hans | ⟨_, rfl, hpoll, hresp⟩
    · exact .inl hans
    · exact .inr ⟨hpoll, hresp⟩

end Sys2Proof.Machine

/-! What the host computes from the stored registers (30_encoding.md R102, R103, R108): the value of a Reading is the
document's (`decoded_decodeFields`), the wind direction and the RSSI are rationals of one byte. -/

namespace Sys2Proof.Machine

open Sys2Proof.Spec

/-! ### Fields of a byte as numbers -/

/-- `k` bits of a byte from bit `i` up, cut out by a mask and brought down. -/
theorem and_mask_div (b : Byte) (i k : Nat) :
    (b.toNat &&& ((2 ^ k - 1) <<< i)) / 2 ^ i = (b.extractLsb' i k).toNat := by
  rw [← Nat.shiftRight_eq_div_pow, Nat.shiftRight_and_distrib, Nat.shiftLeft_shiftRight, Nat.and_two_pow_sub_one_eq_mod,
    BitVec.extractLsb'_toNat]

theorem getLsbD_eq_false_iff_div (b : Byte) (i : Nat) : b.getLsbD i = false ↔ b.toNat / 2 ^ i % 2 = 0 := by
  rw [← BitVec.testBit_toNat, Nat.testBit_eq_decide_div_mod_eq]
  simp

/-! ### The value of a Reading -/

/-- The stored fraction of a kind as the exact rational it stands for (41_bitrev_codec.md R150). -/
def fractionValue (v : Nat × Nat) : ℚ := (v.1 : ℚ) / (v.2 : ℚ)

/-- The numerator and the denominator fit their registers (41_bitrev_codec.md R151 to R160). -/
theorem decodedValue_lt (k : SensorKinds) (kind : BitVec 4) (d0 d1 : Byte) :
    (decodedValue k kind d0 d1).1 < 2 ^ 16 ∧ (decodedValue k kind d0 d1).2 < 2 ^ 8 := by
  have h0 := d0.isLt
  have h1 := d1.isLt
  have h62 := (d1.extractLsb' 6 2).isLt
  have h42 := (d1.extractLsb' 4 2).isLt
  have hF0 := (d1 &&& 0xF0).isLt
  have h7F := (d0 &&& 0x7F).isLt
  unfold decodedValue
  split_ifs <;> constructor <;> dsimp only <;> omega

/-- A kind without a value stores 0 over 1 and reads as 0: its code is that of no other row (00_scope.md R6,
41_bitrev_codec.md R152, R154). -/
theorem uv_has_no_value {k : SensorKinds} (hk : k.all.Nodup) (d0 d1 : Byte) :
    decodedValue k k.uv d0 d1 = (0, 1) ∧ documentValue k k.uv d0.toNat d1.toNat = 0 := by
  simp only [SensorKinds.all, List.nodup_cons, List.mem_cons, List.not_mem_nil, or_false, not_or] at hk
  obtain ⟨⟨hsupercap, -⟩, ⟨hrate, -, hlight, htemp, hgust, hhumidity, hclick⟩, -⟩ := hk
  constructor
  · simp [decodedValue, Ne.symm hsupercap]
  · simp [documentValue, Ne.symm hsupercap, hrate, hlight, htemp, hgust, hhumidity, hclick]

theorem solar_has_no_value {k : SensorKinds} (hk : k.all.Nodup) (d0 d1 : Byte) :
    decodedValue k k.solar d0 d1 = (0, 1) ∧ documentValue k k.solar d0.toNat d1.toNat = 0 := by
  simp only [SensorKinds.all, List.nodup_cons, List.mem_cons, List.not_mem_nil, or_false, not_or] at hk
  obtain ⟨⟨-, -, hsupercap, -⟩, -, ⟨hrate, -⟩, ⟨hlight, htemp, hgust, hhumidity, hclick⟩, -⟩ := hk
  constructor
  · simp [decodedValue, Ne.symm hsupercap, Ne.symm hrate]
  · simp [documentValue, Ne.symm hsupercap, Ne.symm hrate, hlight, htemp, hgust, hhumidity, hclick]

/-- Row by row the fraction is the document's value (41_bitrev_codec.md R151 to R160). -/
theorem fractionValue_decodedValue {k : SensorKinds} (hk : k.all.Nodup) (kind : BitVec 4) (d0 d1 : Byte) :
    fractionValue (decodedValue k kind d0 d1) = documentValue k kind d0.toNat d1.toNat := by
  have hlow : (d1.toNat &&& 0xC0) / 64 = (d1.extractLsb' 6 2).toNat := and_mask_div d1 6 2
  have hmid : (d1.toNat &&& 0x30) / 16 = (d1.extractLsb' 4 2).toNat := and_mask_div d1 4 2
  have hinvalid : d0.toNat = 0xFF ↔ d0 = 0xFF := by bv_omega
  have hwhole : d1.toNat / 64 % 2 = 0 ↔ d1.getLsbD 6 = false := (getLsbD_eq_false_iff_div d1 6).symm
  by_cases huv : kind = k.uv
  · obtain ⟨hdec, hdoc⟩ := uv_has_no_value hk d0 d1
    rw [huv, hdec, hdoc]
    exact zero_div _
  by_cases hsolar : kind = k.solar
  · obtain ⟨hdec, hdoc⟩ := solar_has_no_value hk d0 d1
    rw [hsolar, hdec, hdoc]
    exact zero_div _
  simp only [decodedValue, documentValue, huv, hsolar, if_false, hinvalid, hwhole, hlow, hmid]
  split_ifs <;> simp_all [fractionValue]

/-- The value of a Reading is the document's (41_bitrev_codec.md R150). -/
theorem decoded_decodeFields {k : SensorKinds} (hk : k.all.Nodup) (dec : List Byte) :
    (decodeFields k dec).decoded =
      documentValue k (decodeFields k dec).kind (dec.getD 3 0).toNat (dec.getD 4 0).toNat := by
  obtain ⟨hnum, hden⟩ := decodedValue_lt k (decodeFields k dec).kind (dec.getD 3 0) (dec.getD 4 0)
  rw [← fractionValue_decodedValue hk, fractionValue, ← Nat.mod_eq_of_lt hnum, ← Nat.mod_eq_of_lt hden]
  rfl

/-! ### Wind direction and RSSI -/

theorem windDegrees_mul (v : ReadingVal) : v.windDegrees * 255 = v.wdir.toNat * 360 :=
  div_mul_cancel₀ _ (by norm_num)

theorem windDegrees_of_wdir {v : ReadingVal} {n : Nat} {q : ℚ} (hn : v.wdir.toNat = n) (hq : (n : ℚ) * 360 / 255 = q) :
    v.windDegrees = q := by
  rw [ReadingVal.windDegrees, hn, hq]

theorem windDegrees_nonneg (v : ReadingVal) : 0 ≤ v.windDegrees := by
  unfold ReadingVal.windDegrees
  positivity

theorem windDegrees_le (v : ReadingVal) : v.windDegrees ≤ 360 := by
  have hbyte : (v.wdir.toNat : ℚ) ≤ 255 := by exact_mod_cast Nat.le_of_lt_succ v.wdir.isLt
  have hmul := windDegrees_mul v
  linarith

theorem rssiDbm_mul (b : Byte) : rssiDbm b * 2 + b.toNat = 0 := by
  unfold rssiDbm
  ring

theorem rssiDbm_of_toNat {b : Byte} {n : Nat} {q : ℚ} (hn : b.toNat = n) (hq : -(n : ℚ) / 2 = q) : rssiDbm b = q := by
  rw [rssiDbm, hn, hq]

/-- A larger byte is a weaker signal (45_rssi.md R248). -/
theorem rssiDbm_lt_iff (a b : Byte) : a.toNat < b.toNat ↔ rssiDbm b < rssiDbm a := by
  have ha := rssiDbm_mul a
  have hb := rssiDbm_mul b
  rw [← Nat.cast_lt (α := ℚ)]
  constructor <;> intro h <;> linarith

/-! ### The commands that store them -/

/-- The station compare in numbers (41_bitrev_codec.md R146). -/
theorem addressed_iff (c : Config) (b : Byte) : addressed c b = true ↔ b.toNat % 16 = c.stationNumber % 16 := by
  rw [addressed, beq_iff_eq, ← BitVec.toNat_inj, BitVec.extractLsb'_toNat, Config.stationFilter, BitVec.toNat_ofNat]
  rfl

/-- `DECODE` of a frame for this station stores what it decodes (41_bitrev_codec.md R147). -/
theorem exec_decodeFrame_addressed {s : State} (hf : s.flt.fault = false) (h : addressed s.cfg (s.decAt 0) = true) :
    ∃ t, exec .decodeFrame s = .next t ∧ t.rd.val = decodeFields s.cfg.kinds s.buf.dec := by
  refine ⟨_, congrArg Host.Outcome.next (judge_of_clear hf _), ?_⟩
  simp [decodeReading, h]

/-- `READ_RSSI 0` stores the device's byte (45_rssi.md R246, R249). -/
theorem exec_readRssi_value {s : State} (h : s.clear) (hs : s.env.succeeds 1) :
    ∃ t, exec (.readRssi false) s = .next t ∧ t.drv.rssiRaw = s.env.nextAnswer.data := by
  obtain ⟨hf, hr⟩ := h
  refine ⟨_, congrArg Host.Outcome.next (judge_of_clear hf _), ?_⟩
  rw [sampleRssi_ok false .readRssi hr hs nofun, ok_andThen, storeRssi, finish_ok (by simpa using hr)]
  rfl

/-- Settles O59: each stored register by the command that stores it, each conversion by its formula. -/
theorem storedRegistersConvertExactly : Obligations.StoredRegistersConvertExactly := by
  unfold Obligations.StoredRegistersConvertExactly
  refine ⟨fun s hcfg hf hstation => ?_, fun s hclear hs => ?_, rssiDbm_of_toNat (n := 0) rfl (by norm_num),
    rssiDbm_of_toNat (n := 0x5B) rfl (by norm_num), rssiDbm_of_toNat (n := 0xB4) rfl (by norm_num),
    rssiDbm_of_toNat (n := 255) rfl (by norm_num), rssiDbm_lt_iff⟩
  · obtain ⟨-, ⟨-, -, -, -, -, -, -, hkinds⟩, -⟩ := hcfg
    obtain ⟨t, ht, hval⟩ := exec_decodeFrame_addressed hf ((addressed_iff s.cfg (s.decAt 0)).mpr hstation)
    have hdir : t.rd.val.wdir = s.decAt 2 := congrArg ReadingVal.wdir hval
    have hat {n : Nat} {q : ℚ} (hn : (s.decAt 2).toNat = n) (hq : (n : ℚ) * 360 / 255 = q) :
        t.rd.val.windDegrees = q := windDegrees_of_wdir (hdir ▸ hn) hq
    refine ⟨t, ht, ?_, ?_, ?_, fun h => ?_, fun h => ?_, fun h => ?_, windDegrees_nonneg _, windDegrees_le _⟩
    · rw [hval]
      exact decoded_decodeFields hkinds s.buf.dec
    · rw [hval]
      rfl
    · rw [← hdir]
      exact windDegrees_mul t.rd.val
    · exact hat (n := 255) (by rw [h]; rfl) (by norm_num)
    · exact hat (n := 0) (by rw [h]; rfl) (by norm_num)
    · exact hat (n := 128) (by rw [h]; rfl) (by norm_num)
  · obtain ⟨t, ht, hraw⟩ := exec_readRssi_value hclear hs
    exact ⟨t, ht, hraw ▸ rssiDbm_mul t.drv.rssiRaw⟩

end Sys2Proof.Machine

/-! The Checksum Engine (40_checksum.md). A round of the division is linear over exclusive-or (`tableRound_xor`), so a
table step is eight rounds on the running CRC with the byte in its high half (`crcStep_eq_eightRounds`). A polynomial
with its low bit set makes a round injective (`tableRound_injective`): no later byte hides a difference. -/

namespace Sys2Proof.Machine

open Sys2Proof.Spec

/-! ### Two bytes as a half -/

theorem half_eq_append (x : Half) : ∃ hi lo : Byte, x = hi ++ lo :=
  ⟨_, _, (BitVec.extractLsb'_append_extractLsb' (w := 8) (len := 8)).symm⟩

theorem append_xor_append (a b x y : Byte) : (a ++ b : Half) ^^^ (x ++ y) = (a ^^^ x) ++ (b ^^^ y) := BitVec.xor_append

theorem append_shiftLeft_eight (hi lo : Byte) : (hi ++ lo : Half) <<< 8 = lo ++ 0#8 := by
  apply BitVec.eq_of_getLsbD_eq
  intro i hi
  rw [BitVec.getLsbD_shiftLeft, BitVec.getLsbD_append, BitVec.getLsbD_append]
  rcases Nat.lt_or_ge i 8 with hlt | hge
  · simp [hlt]
  · simp [hi, Nat.not_lt.mpr hge, show i - 8 < 8 by omega]

/-! ### One round -/

/-- A round moves every bit up and brings the polynomial in when the top bit was set (40_checksum.md R121). -/
theorem tableRound_eq (p c : Half) : tableRound p c = (c <<< 1) ^^^ (if c.getLsbD 15 then p else 0) := by
  unfold tableRound
  split <;> simp

theorem tableRound_of_top_clear (p : Half) {c : Half} (h : c.getLsbD 15 = false) : tableRound p c = c <<< 1 := by
  rw [tableRound_eq, h]
  simp

/-- The polynomial comes in once when one of the two top bits is set, and twice when both are. -/
theorem tableRound_xor (p a b : Half) : tableRound p (a ^^^ b) = tableRound p a ^^^ tableRound p b := by
  have hpoly (x y : Bool) :
      (if x ^^ y then p else 0) = (if x then p else 0) ^^^ (if y then p else 0) := by
    cases x <;> cases y <;> simp
  rw [tableRound_eq, tableRound_eq, tableRound_eq, BitVec.getLsbD_xor, hpoly, BitVec.shiftLeft_xor_distrib]
  ac_rfl

/-- The low bit of the result says whether the polynomial came in. -/
theorem tableRound_getLsbD_zero {p : Half} (hp : p.getLsbD 0 = true) (c : Half) :
    (tableRound p c).getLsbD 0 = c.getLsbD 15 := by
  rw [tableRound_eq, BitVec.getLsbD_xor]
  cases c.getLsbD 15 <;> simp [hp]

/-- The low bit of the result gives back the top bit, and the shifted bits the others. -/
theorem tableRound_injective {p : Half} (hp : p.getLsbD 0 = true) : Function.Injective (tableRound p) := by
  intro a b h
  have htop : a.getLsbD 15 = b.getLsbD 15 := by
    rw [← tableRound_getLsbD_zero hp, h, tableRound_getLsbD_zero hp]
  have hshift : a <<< 1 = b <<< 1 := by
    rw [tableRound_eq, tableRound_eq, htop] at h
    exact (BitVec.xor_left_inj _).mp h
  apply BitVec.eq_of_getLsbD_eq
  intro i hi
  rcases Nat.lt_or_ge i 15 with hlt | hge
  · have hbit := congrArg (fun x : Half => x.getLsbD (i + 1)) hshift
    simpa [hi, show i + 1 < 16 by omega] using hbit
  · obtain rfl : i = 15 := by omega
    exact htop

/-- While no set bit reaches the top, the rounds are shifts. -/
theorem tableRound_iterate_of_narrow (p : Half) {m n : Nat} (x : BitVec m) (h : m + n ≤ 16) :
    (tableRound p)^[n] (x.setWidth 16) = x.setWidth 16 <<< n := by
  induction n with
  | zero => simp
  | succ n ih =>
    have htop : (x.setWidth 16 <<< n).getLsbD 15 = false := by
      simp [BitVec.getLsbD_of_ge x (15 - n) (by omega)]
    rw [Function.iterate_succ_apply', ih (by omega), tableRound_of_top_clear p htop, BitVec.shiftLeft_add]

/-! ### Eight rounds -/

theorem eightRounds_eq_iterate (p c : Half) : eightRounds p c = (tableRound p)^[8] c :=
  List.foldl_const (tableRound p) c (List.range 8)

theorem eightRounds_xor (p a b : Half) : eightRounds p (a ^^^ b) = eightRounds p a ^^^ eightRounds p b := by
  simp only [eightRounds_eq_iterate]
  exact Function.Semiconj₂.iterate (tableRound_xor p) 8 a b

@[simp] theorem eightRounds_zero (p : Half) : eightRounds p 0#16 = 0#16 := by
  simpa using eightRounds_xor p 0 0

theorem eightRounds_injective {p : Half} (hp : p.getLsbD 0 = true) : Function.Injective (eightRounds p) := by
  rw [funext (eightRounds_eq_iterate p)]
  exact (tableRound_injective hp).iterate 8

/-- A low byte moves to the high half. -/
theorem eightRounds_low (p : Half) (lo : Byte) : eightRounds p (0#8 ++ lo) = lo ++ 0#8 := by
  have hlow : 0#8 ++ lo = lo.setWidth 16 := (BitVec.setWidth_eq_append (by decide)).symm
  rw [eightRounds_eq_iterate, hlow, tableRound_iterate_of_narrow p lo (le_refl 16), ← hlow, append_shiftLeft_eight]

/-- The one bit of index 1 reaches the top in seven rounds, and the eighth brings the polynomial in
(40_checksum.md R121). -/
theorem eightRounds_one (p : Half) : eightRounds p (0x01#8 ++ 0#8) = p := by
  have hseven : (tableRound p)^[7] (0x01#8 ++ 0#8) = 0x8000#16 := tableRound_iterate_of_narrow p 0x100#9 (le_refl 16)
  rw [eightRounds_eq_iterate, Function.iterate_succ_apply', hseven, tableRound_eq]
  simp

/-! ### The table and its step -/

theorem tableAt_eq_eightRounds (c : Config) (i : Byte) : tableAt c i = eightRounds c.poly (i ++ 0#8) := by
  have hhigh : i.setWidth 16 <<< 8 = i ++ 0#8 := by
    rw [BitVec.setWidth_eq_append (by decide)]
    exact append_shiftLeft_eight 0#8 i
  rw [← hhigh]
  rfl

/-- The low byte of the running CRC needs no table: the rounds only move it up (40_checksum.md R122). -/
theorem crcStep_eq_eightRounds (c : Config) (crc : Half) (b : Byte) :
    crcStep c crc b = eightRounds c.poly (crc ^^^ (b ++ 0#8)) := by
  obtain ⟨hi, lo, rfl⟩ := half_eq_append crc
  calc crcStep c (hi ++ lo) b
      = lo ++ 0#8 ^^^ eightRounds c.poly ((hi ^^^ b) ++ 0#8) := by
        rw [crcStep, BitVec.extractLsb'_append_eq_left, append_shiftLeft_eight, tableAt_eq_eightRounds]
    _ = eightRounds c.poly (0#8 ++ lo ^^^ (hi ^^^ b) ++ 0#8) := by rw [eightRounds_xor, eightRounds_low]
    _ = eightRounds c.poly (hi ++ lo ^^^ b ++ 0#8) := by
        rw [append_xor_append, append_xor_append, BitVec.zero_xor, BitVec.xor_zero]

theorem crcStep_xor (c : Config) (a b : Half) (x y : Byte) :
    crcStep c (a ^^^ b) (x ^^^ y) = crcStep c a x ^^^ crcStep c b y := by
  have hbyte : ((x ^^^ y) ++ 0#8 : Half) = x ++ 0#8 ^^^ y ++ 0#8 := (append_xor_append x 0 y 0).symm
  rw [crcStep_eq_eightRounds, crcStep_eq_eightRounds, crcStep_eq_eightRounds, ← eightRounds_xor, hbyte]
  congr 1
  ac_rfl

theorem crcStep_zero (c : Config) : crcStep c 0 0 = 0 := by
  rw [crcStep_eq_eightRounds]
  exact eightRounds_zero c.poly

/-- Two bytes are sixteen rounds on the running CRC with both of them in it. -/
theorem crcStep_crcStep (c : Config) (crc : Half) (hi lo : Byte) :
    crcStep c (crcStep c crc hi) lo = eightRounds c.poly (eightRounds c.poly (crc ^^^ (hi ++ lo))) := by
  have hbytes : (hi ++ lo : Half) = hi ++ 0#8 ^^^ 0#8 ++ lo := by
    rw [append_xor_append, BitVec.xor_zero, BitVec.zero_xor]
  rw [crcStep_eq_eightRounds, crcStep_eq_eightRounds, ← eightRounds_low c.poly lo, ← eightRounds_xor, hbytes,
    BitVec.xor_assoc]

theorem crcStep_injective {c : Config} (hp : c.poly.getLsbD 0 = true) (b : Byte) :
    Function.Injective fun crc => crcStep c crc b := by
  intro x y h
  simp only [crcStep_eq_eightRounds] at h
  exact (BitVec.xor_left_inj _).mp (eightRounds_injective hp h)

theorem crcStep_byte_injective {c : Config} (hp : c.poly.getLsbD 0 = true) (crc : Half) :
    Function.Injective (crcStep c crc) := by
  intro x y h
  simp only [crcStep_eq_eightRounds] at h
  have hhigh : (x ++ 0#8 : Half) = y ++ 0#8 := (BitVec.xor_right_inj crc).mp (eightRounds_injective hp h)
  exact (BitVec.append_left_inj _).mp hhigh

/-! ### The checksum of a sequence -/

@[simp] theorem checksum_nil (c : Config) (init : Half) : checksum c init [] = init := rfl

@[simp] theorem checksum_cons (c : Config) (init : Half) (b : Byte) (data : List Byte) :
    checksum c init (b :: data) = checksum c (crcStep c init b) data := rfl

theorem checksum_append (c : Config) (init : Half) (x y : List Byte) :
    checksum c init (x ++ y) = checksum c (checksum c init x) y := List.foldl_append

theorem checksum_xor (c : Config) (a b : Half) {x y : List Byte} (h : x.length = y.length) :
    checksum c (a ^^^ b) (List.zipWith (· ^^^ ·) x y) = checksum c a x ^^^ checksum c b y := by
  induction x generalizing a b y with
  | nil =>
    obtain rfl : y = [] := List.eq_nil_of_length_eq_zero h.symm
    rfl
  | cons i x ih =>
    obtain _ | ⟨j, y⟩ := y
    · cases h
    · rw [List.zipWith_cons_cons, checksum_cons, checksum_cons, checksum_cons, crcStep_xor]
      exact ih _ _ (Nat.succ.inj h)

theorem checksum_zeros (c : Config) (n : Nat) : checksum c 0 (List.replicate n 0) = 0 := by
  induction n with
  | zero => rfl
  | succ n ih => rw [List.replicate_succ, checksum_cons, crcStep_zero, ih]

theorem checksum_injective {c : Config} (hp : c.poly.getLsbD 0 = true) (data : List Byte) :
    Function.Injective fun init => checksum c init data := by
  induction data with
  | nil => exact Function.injective_id
  | cons b data ih => exact ih.comp (crcStep_injective hp b)

/-- The step at the changed byte makes the running CRCs differ, and they stay different to the end. -/
theorem checksum_set_ne {c : Config} (hp : c.poly.getLsbD 0 = true) (init : Half) {frame : List Byte} {i : Nat}
    (hi : i < frame.length) {b : Byte} (hb : b ≠ frame.getD i 0) :
    checksum c init (frame.set i b) ≠ checksum c init frame := by
  induction frame generalizing init i with
  | nil => cases hi
  | cons a frame ih =>
    cases i with
    | zero => exact fun h => hb (crcStep_byte_injective hp init (checksum_injective hp frame h))
    | succ i => exact ih _ (Nat.lt_of_succ_lt_succ hi) hb

theorem xor_flip_ne (b : Byte) {k : Nat} (hk : k < 8) : b ^^^ (1#8 <<< k) ≠ b := by
  intro h
  have hbit := congrArg (fun x : Byte => x.getLsbD k) h
  simp [hk] at hbit

/-! ### What the payload and the frame statements say -/

/-- The reference polynomial has its low bit set. -/
theorem poly_odd_of_reference {c : Config} (h : c.poly = 0x1021) : c.poly.getLsbD 0 = true := by
  rw [h]
  rfl

/-- Settles O23: after the payload the two bytes meet the running CRC as one half, and sixteen rounds take 0, and only 0
when they are injective, to 0. -/
theorem onlyItsOwnCrcMakesAPayloadValid : Obligations.OnlyItsOwnCrcMakesAPayloadValid := by
  unfold Obligations.OnlyItsOwnCrcMakesAPayloadValid
  intro c init payload hi lo
  rw [checksum_append, checksum_cons, checksum_cons, checksum_nil, crcStep_crcStep]
  constructor
  · intro hcrc
    rw [hcrc]
    simp
  · intro hpoly hzero
    have hinj := eightRounds_injective (poly_odd_of_reference hpoly)
    have hrounds := hinj.iterate 2 (hzero.trans (show 0#16 = eightRounds c.poly (eightRounds c.poly 0#16) by simp))
    exact (BitVec.xor_eq_zero_iff.mp hrounds).symm

/-- Settles O24: linear by `checksum_xor`, zero on zeros, and a fold. -/
theorem checksumIsLinear : Obligations.ChecksumIsLinear := by
  unfold Obligations.ChecksumIsLinear
  exact fun c a b x y => ⟨checksum_xor c a b, checksum_zeros c, checksum_append c a x y⟩

/-- Settles O25: a flipped bit is a changed byte. -/
theorem oneFlippedBitIsDetected : Obligations.OneFlippedBitIsDetected := by
  unfold Obligations.OneFlippedBitIsDetected
  exact fun c init frame i k hpoly hi hk => checksum_set_ne (poly_odd_of_reference hpoly) init hi (xor_flip_ne _ hk)

/-! ### The commands -/

/-- A command that is not refused answers with the number its result word stands for. -/
theorem next_judge_ended {s t : State} (hf : s.flt.fault = false) {st : Status} {v : Word} {n : Nat}
    (hv : v = BitVec.ofNat 32 n) :
    (.next (judge s true (respond st v t)) : Host.Outcome State Fault Refusal) = .next (ended st n t) := by
  rw [judge_of_clear hf, hv]
  rfl

/-- The word of a format with a single field of `n` bits, its `k` reserved bits written out (30_encoding.md R93). -/
theorem wordOf_field {k n : Nat} (h : 8 + k + n = 40) (op : Byte) (b : BitVec n) :
    wordOf op (b.setWidth 32) = (op ++ 0#k ++ b).cast h := by
  have hfit : (b.setWidth 32).toNat = b.toNat := BitVec.toNat_setWidth_of_le (by omega)
  have hword : (wordOf op (b.setWidth 32)).toNat = op.toNat <<< 32 ||| (b.setWidth 32).toNat := BitVec.toNat_append _ _
  apply BitVec.eq_of_toNat_eq
  rw [hword, hfit, show 32 = k + n by omega, Nat.shiftLeft_add]
  simp

/-- Settles O21: the table step is `crcStep_eq_eightRounds`. -/
theorem crcByteIsEightRoundsOfDivision : Obligations.CrcByteIsEightRoundsOfDivision := by
  unfold Obligations.CrcByteIsEightRoundsOfDivision
  intro s b hf
  rw [← crcStep_eq_eightRounds]
  exact next_judge_ended hf (BitVec.ofNat_toNat 32 _).symm

/-- Settles O19: the table entry is `tableAt_eq_eightRounds`. -/
theorem crcTblReadsTheTable : Obligations.CrcTblReadsTheTable := by
  unfold Obligations.CrcTblReadsTheTable
  refine ⟨fun b => wordOf_field rfl 0x10 b, fun s b hf => ?_, fun p => ⟨eightRounds_zero p, eightRounds_one p⟩⟩
  rw [← tableAt_eq_eightRounds]
  exact next_judge_ended hf (BitVec.ofNat_toNat 32 _).symm

/-- Settles O20: `CRC.INIT` answers with what it loads. -/
theorem crcInitLoadsTheCrc : Obligations.CrcInitLoadsTheCrc := by
  unfold Obligations.CrcInitLoadsTheCrc
  exact fun s h hf => ⟨wordOf_field rfl 0x11 h, next_judge_ended hf (BitVec.ofNat_toNat 32 h).symm⟩

/-- The verdict stands above the CRC (40_checksum.md R127). -/
theorem flagAt_or_crc (ok : Bool) (crc : Half) :
    flagAt ok 16 ||| crc.setWidth 32 = BitVec.ofNat 32 (crc.toNat + 65536 * bit ok) := by
  have hdisjoint (n : Nat) : 65536 * n + crc.toNat = 65536 * n ||| crc.toNat :=
    Nat.two_pow_add_eq_or_of_lt (i := 16) crc.isLt n
  rw [Nat.add_comm, hdisjoint, BitVec.ofNat_or, BitVec.ofNat_toNat]
  cases ok <;> rfl

/-- Settles O22: `CRC.FRAME` answers with the verdict of `verifyDec`. -/
theorem crcFrameVerifiesTheDecodedFrame : Obligations.CrcFrameVerifiesTheDecodedFrame := by
  unfold Obligations.CrcFrameVerifiesTheDecodedFrame
  exact ⟨rfl, fun s hf => ⟨_, rfl, next_judge_ended hf (flagAt_or_crc _ _)⟩⟩

end Sys2Proof.Machine

/-! The codec (41_bitrev_codec.md). `bitrev8` is bit reversal, so a frame is normalised bit by bit and the bytes it
fixes are mirrored nibbles. What `DECODE` stores is a function of bytes 0 to 5, and its fraction is the rule's of its
kind in numbers (`decodedValue_eq_documentFraction`) and the document's value as a rational
(`decoded_decodeFields`). -/

namespace Sys2Proof.Machine

open Sys2Proof.Spec

/-! ### Bit reversal -/

/-- Bit `i` of the answer is bit `7 - i` (41_bitrev_codec.md R141). -/
theorem getLsbD_bitrev8 (b : Byte) {i : Nat} (hi : i < 8) : (bitrev8 b).getLsbD i = b.getLsbD (7 - i) := by
  simp only [bitrev8, BitVec.getLsbD_append, BitVec.getLsbD_extractLsb']
  interval_cases i <;> simp

theorem bitrev8_eq_reverse (b : Byte) : bitrev8 b = b.reverse := by
  apply BitVec.eq_of_getLsbD_eq
  intro i hi
  rw [getLsbD_bitrev8 b hi, BitVec.getLsbD_reverse, BitVec.getMsbD_eq_getLsbD, decide_eq_true hi, Bool.true_and]

theorem bitrev8_bitrev8 (b : Byte) : bitrev8 (bitrev8 b) = b := by
  rw [bitrev8_eq_reverse, bitrev8_eq_reverse, BitVec.reverse_reverse_eq]

/-- The byte whose low nibble is `n` and whose high nibble is `n` reversed. -/
def mirrored (n : BitVec 4) : Byte := bitrev8 (n.setWidth 8) ||| n.setWidth 8

/-- A palindromic byte is given by its low nibble. -/
theorem eq_mirrored_of_bitrev8_eq {b : Byte} (h : bitrev8 b = b) : b = mirrored (b.extractLsb' 0 4) := by
  apply BitVec.eq_of_getLsbD_eq
  intro i hi
  have hbit : b.getLsbD (7 - i) = b.getLsbD i := by rw [← getLsbD_bitrev8 b hi, h]
  rw [mirrored, BitVec.getLsbD_or, getLsbD_bitrev8 _ hi]
  rcases Nat.lt_or_ge i 4 with hlow | hhigh
  · simp [hbit, hi, hlow]
  · simp [← hbit, Nat.not_lt.mpr hhigh, show 7 - i < 8 by omega, show 7 - i < 4 by omega]

/-- The sixteen bytes of 41_bitrev_codec.md R143. -/
def palindromes : List Byte :=
  [0x00, 0x18, 0x24, 0x3C, 0x42, 0x5A, 0x66, 0x7E, 0x81, 0x99, 0xA5, 0xBD, 0xC3, 0xDB, 0xE7, 0xFF]

theorem bitrev8_eq_self_iff (b : Byte) : bitrev8 b = b ↔ b ∈ palindromes := by
  have hmirrored : ∀ n : BitVec 4, mirrored n ∈ palindromes := by decide
  have hfixed : ∀ x ∈ palindromes, bitrev8 x = x := by decide
  exact ⟨fun h => eq_mirrored_of_bitrev8_eq h ▸ hmirrored _, hfixed b⟩

/-- Settles O26: the reversal is `getLsbD_bitrev8`, its fixed bytes are `bitrev8_eq_self_iff`. -/
theorem bitrevReversesAByte : Obligations.BitrevReversesAByte := by
  unfold Obligations.BitrevReversesAByte
  exact ⟨fun b => wordOf_field rfl 0x20 b, bitrev8_eq_self_iff,
    fun s b hf => next_judge_ended hf (BitVec.ofNat_toNat 32 _).symm,
    fun b => ⟨bitrev8_bitrev8 b, fun _ hi => getLsbD_bitrev8 b hi⟩⟩

/-! ### The frame buffers -/

/-- The two fields of format IB after its reserved bits (30_encoding.md R93). -/
theorem encode_frameLd (i : BitVec 4) (b : Byte) : encode (.frameLd i b) = 0x21#8 ++ 0#20 ++ i ++ b :=
  calc encode (.frameLd i b)
      = 0x21#8 ++ 0#20 ++ (i ++ b) := wordOf_field rfl 0x21 (i ++ b)
    _ = 0x21#8 ++ 0#20 ++ i ++ b := BitVec.append_assoc.symm

/-- In range `FRAME.LD` is `setRaw` (41_bitrev_codec.md R144). -/
theorem exec_frameLd_of_inRange {s : State} {i : BitVec 4} (b : Byte) (hf : s.flt.fault = false)
    (hi : i.toNat < s.cfg.frameLen) : exec (.frameLd i b) s = .next (ended .ok 0 (s.setRaw i.toNat b)) := by
  have hok : s.cfg.frameIndexInRange i = true := (frameIndexInRange_iff s.cfg i).mpr hi
  calc exec (.frameLd i b) s
      = .next (judge s true (respond .ok 0 (s.setRaw i.toNat b))) := by rw [← hok]; rfl
    _ = .next (ended .ok 0 (s.setRaw i.toNat b)) := next_judge_ended hf rfl

/-- Settles O27: read after write on `raw`, and the argument range. -/
theorem frameLdWritesOneRawByte : Obligations.FrameLdWritesOneRawByte := by
  unfold Obligations.FrameLdWritesOneRawByte
  rintro s i b ⟨hraw, -⟩ hf
  refine ⟨encode_frameLd i b, fun hi => ?_, fun hi => exec_of_argument_outOfRange (.inl hf) (Nat.not_lt.mpr hi)⟩
  exact ⟨_, exec_frameLd_of_inRange b hf hi, rawAt_setRaw_self (hraw ▸ hi) b, fun _ hj => rawAt_setRaw_of_ne hj b,
    List.length_set, rfl⟩

theorem exec_frameNorm {s : State} (hf : s.flt.fault = false) :
    exec .frameNorm s = .next (ended .ok 0 (normalise s)) := next_judge_ended hf rfl

theorem decAt_normalise (s : State) (i : Nat) : (normalise s).decAt i = bitrev8 (s.rawAt i) :=
  List.getD_map s.buf.raw 0 bitrev8

/-- Settles O28: `normalise` reads `raw`, which neither it nor the answer changes, so a second one writes the same. -/
theorem frameNormReversesEveryByte : Obligations.FrameNormReversesEveryByte := by
  unfold Obligations.FrameNormReversesEveryByte
  refine ⟨rfl, fun s hf => ⟨_, exec_frameNorm hf, rfl, List.length_map _, fun i _ j hj => ?_, exec_frameNorm hf⟩⟩
  have hdec : (ended .ok 0 (normalise s)).decAt i = bitrev8 (s.rawAt i) := decAt_normalise s i
  rw [hdec, getLsbD_bitrev8 _ hj]

/-! ### The fields of a frame -/

theorem toNat_and_highNibble (b : Byte) : (b &&& 0xF0).toNat = b.toNat / 16 * 16 := by
  have hshift : b >>> 4 <<< 4 = b &&& 0xF0 := BitVec.shiftLeft_ushiftRight
  have hfit : b.toNat / 16 * 16 < 2 ^ 8 := by omega
  rw [← hshift, BitVec.toNat_shiftLeft, BitVec.toNat_ushiftRight, Nat.shiftRight_eq_div_pow, Nat.shiftLeft_eq,
    Nat.mod_eq_of_lt hfit]

/-- The fraction by fields of bits is the rule's in numbers (41_bitrev_codec.md R151 to R160). -/
theorem decodedValue_eq_documentFraction (k : SensorKinds) (kind : BitVec 4) (d0 d1 : Byte) :
    decodedValue k kind d0 d1 = documentFraction k kind d0.toNat d1.toNat := by
  have hlow : (d1.extractLsb' 6 2).toNat = d1.toNat / 64 := by
    rw [BitVec.extractLsb'_toNat, Nat.shiftRight_eq_div_pow]
    omega
  have hmid : (d1.extractLsb' 4 2).toNat = d1.toNat / 16 % 4 := by
    rw [BitVec.extractLsb'_toNat, Nat.shiftRight_eq_div_pow]
  have hhumidity : (d1 &&& 0xF0).toNat * 16 = d1.toNat / 16 * 256 := by
    rw [toNat_and_highNibble]
    omega
  have hclick : (d0 &&& 0x7F).toNat = d0.toNat % 128 := Nat.and_two_pow_sub_one_eq_mod d0.toNat 7
  have hinvalid : d0 = 0xFF ↔ d0.toNat = 0xFF := by bv_omega
  have hrate (n : Nat) :
      (if d1.getLsbD 6 then (n, 16) else (n, 1)) = (n, if d1.toNat / 64 % 2 = 0 then 1 else 16) := by
    have hbit : d1.toNat / 64 % 2 = 0 ↔ d1.getLsbD 6 = false := (getLsbD_eq_false_iff_div d1 6).symm
    simp only [hbit]
    cases d1.getLsbD 6 <;> rfl
  simp only [decodedValue, documentFraction, hlow, hmid, hhumidity, hclick, hinvalid, hrate]

/-- Settles O30: the value is `decoded_decodeFields`, and the legal denominators are the invariant's. -/
theorem decodedValueIsTheDocumentsFormula : Obligations.DecodedValueIsTheDocumentsFormula := by
  unfold Obligations.DecodedValueIsTheDocumentsFormula
  rintro c dec ⟨-, ⟨-, -, -, -, -, -, -, hkinds⟩, -⟩
  exact ⟨decoded_decodeFields hkinds dec, List.mem_map_of_mem (f := BitVec.toNat) (decodeFields_den c.kinds dec)⟩

/-- The stored numbers are the rule's: they fit their registers (`decodedValue_lt`). -/
theorem decodeFields_fraction (k : SensorKinds) (dec : List Byte) :
    ((decodeFields k dec).num.toNat, (decodeFields k dec).den.toNat) =
      documentFraction k (decodeFields k dec).kind (dec.getD 3 0).toNat (dec.getD 4 0).toNat := by
  obtain ⟨hnum, hden⟩ := decodedValue_lt k (decodeFields k dec).kind (dec.getD 3 0) (dec.getD 4 0)
  rw [← decodedValue_eq_documentFraction]
  exact Prod.ext (Nat.mod_eq_of_lt hnum) (Nat.mod_eq_of_lt hden)

/-- The kind is the high nibble of byte 0 (41_bitrev_codec.md R148). -/
theorem decodeFields_kind_toNat (k : SensorKinds) (dec : List Byte) :
    (decodeFields k dec).kind.toNat = (dec.getD 0 0).toNat / 16 := by
  have hkind : (decodeFields k dec).kind.toNat = (dec.getD 0 0).toNat >>> 4 % 2 ^ 4 := BitVec.extractLsb'_toNat ..
  rw [hkind, Nat.shiftRight_eq_div_pow]
  omega

theorem toNat_append_byte {n : Nat} (x : BitVec n) (y : Byte) : (x ++ y).toNat = x.toNat * 256 + y.toNat := by
  rw [BitVec.toNat_append, ← Nat.shiftLeft_add_eq_or_of_lt y.isLt, Nat.shiftLeft_eq]

theorem decodeFields_raw_toNat (k : SensorKinds) (dec : List Byte) :
    (decodeFields k dec).raw.toNat =
      (dec.getD 3 0).toNat * 65536 + (dec.getD 4 0).toNat * 256 + (dec.getD 5 0).toNat := by
  have hraw : (decodeFields k dec).raw.toNat = (dec.getD 3 0 ++ dec.getD 4 0 ++ dec.getD 5 0).toNat := rfl
  rw [hraw, toNat_append_byte, toNat_append_byte]
  omega

/-- `decode_fields` reads bytes 0 to 5 (41_bitrev_codec.md R161). -/
theorem decodeFields_congr {x y : List Byte} (h : ∀ i < 6, x.getD i 0 = y.getD i 0) (k : SensorKinds) :
    decodeFields k x = decodeFields k y := by
  simp only [decodeFields, h 0 (by decide), h 1 (by decide), h 2 (by decide), h 3 (by decide), h 4 (by decide),
    h 5 (by decide)]

/-! ### DECODE -/

theorem decodeReading_of_addressed {s : State} (h : addressed s.cfg (s.decAt 0) = true) :
    decodeReading s =
      { s with rd := { val := decodeFields s.cfg.kinds s.buf.dec, valid := false, nfts := false } } := if_pos h

theorem decodeReading_of_not_addressed {s : State} (h : ¬ addressed s.cfg (s.decAt 0) = true) :
    decodeReading s = { s with rd := { s.rd with valid := false, nfts := true } } := if_neg h

theorem flagAt_zero (b : Bool) : flagAt b 0 = BitVec.ofNat 32 (bit b) := by
  cases b <;> rfl

/-- `DECODE` answers with the `nfts` it leaves (41_bitrev_codec.md R147). -/
theorem exec_decodeFrame_eq {s t : State} (hf : s.flt.fault = false) (ht : decodeReading s = t) :
    exec .decodeFrame s = .next (ended .ok (bit t.rd.nfts) t) := by
  subst ht
  exact next_judge_ended hf (flagAt_zero _)

/-- Settles O29: the two outcomes of `decodeReading`, and the fields in numbers. -/
theorem decodeReadsTheFields : Obligations.DecodeReadsTheFields := by
  unfold Obligations.DecodeReadsTheFields
  refine fun s hf => ⟨fun hother => ?_, fun hstation => ⟨?_, ?_⟩⟩
  · exact exec_decodeFrame_eq hf (decodeReading_of_not_addressed (mt (addressed_iff _ _).mp hother))
  · exact exec_decodeFrame_eq hf (decodeReading_of_addressed ((addressed_iff _ _).mpr hstation))
  · exact ⟨BitVec.extractLsb'_toNat .., decodeFields_kind_toNat _ _, rfl, rfl, rfl, decodeFields_raw_toNat _ _,
      decodeFields_fraction _ _⟩

theorem decodeReading_rd_congr {s : State} {other : List Byte} (h : ∀ i < 6, other.getD i 0 = s.decAt i) :
    (decodeReading { s with buf := { s.buf with dec := other } }).rd = (decodeReading s).rd := by
  have hstation : ({ s with buf := { s.buf with dec := other } } : State).decAt 0 = s.decAt 0 := h 0 (by decide)
  by_cases haddr : addressed s.cfg (s.decAt 0) = true
  · rw [decodeReading_of_addressed haddr, decodeReading_of_addressed (by rw [hstation]; exact haddr)]
    exact congrArg (Reading.mk · false false) (decodeFields_congr h s.cfg.kinds)
  · rw [decodeReading_of_not_addressed haddr, decodeReading_of_not_addressed (by rw [hstation]; exact haddr)]

theorem exec_decodeFrame_of_fault {s : State} (hf : s.flt.fault = true) :
    exec .decodeFrame s = .next (refuse .errFault s) := congrArg Host.Outcome.next (judge_of_fault hf true _)

/-- Settles O31: outside the fault state, which refuses both alike, the answer is a field of the Reading registers, and
those are the same by `decodeReading_rd_congr`. -/
theorem decodeIgnoresTheBytesAfterFive : Obligations.DecodeIgnoresTheBytesAfterFive := by
  unfold Obligations.DecodeIgnoresTheBytesAfterFive
  intro s other h
  have hrd := decodeReading_rd_congr h
  cases hf : s.flt.fault with
  | true => exact ⟨_, _, exec_decodeFrame_of_fault hf, exec_decodeFrame_of_fault hf, rfl, rfl⟩
  | false =>
    refine ⟨_, _, exec_decodeFrame_eq hf rfl, exec_decodeFrame_eq hf rfl, hrd, ?_⟩
    rw [hrd]
    rfl

end Sys2Proof.Machine

/-! The hop-sequence state machine (42_hop_sync.md). The handler is `afterHandle`, path by path
(`handle_eq_afterHandle`), so its commands follow the transition table; a run of timeouts counts up to the threshold
(`runAll_timeouts`). -/

namespace Sys2Proof.Machine

open Sys2Proof.Spec

/-! ### The path a frame takes -/

/-- The residue compare in words (40_checksum.md R128). -/
theorem residueOk_iff (c : Config) (crc : Half) : residueOk c crc = true ↔ crc = c.residue := beq_iff_eq

theorem handlerPath_corrupt {s : State}
    (hcrc : residueOk s.cfg (checksum s.cfg s.cfg.crcInit (s.buf.raw.map bitrev8)) = false) :
    handlerPath s false = .corrupt := by
  have hne := mt (residueOk_iff _ _).mpr (Bool.eq_false_iff.mp hcrc)
  simp [handlerPath, hne]

section
variable {s : State} (hcrc : residueOk s.cfg (checksum s.cfg s.cfg.crcInit (s.buf.raw.map bitrev8)) = true)
include hcrc

theorem handlerPath_wrongStation (haddr : addressed s.cfg ((normalise s).decAt 0) = false) :
    handlerPath s false = .wrongStation := by
  have hother := mt (addressed_iff _ _).mpr (Bool.eq_false_iff.mp haddr)
  rw [decAt_normalise] at hother
  simp [handlerPath, (residueOk_iff _ _).mp hcrc, hother]

theorem handlerPath_good (haddr : addressed s.cfg ((normalise s).decAt 0) = true) :
    handlerPath s false = .good := by
  have hthis := (addressed_iff _ _).mp haddr
  rw [decAt_normalise] at hthis
  simp [handlerPath, (residueOk_iff _ _).mp hcrc, hthis]

end

/-! ### The sync group of each row -/

theorem paced_eq_dwellElapsed (s : State) (t : Word) : paced s.cfg t s.sync.lastHop = dwellElapsed s t := by
  have hle := s.sync.lastHop.isLt.le
  rw [paced, dwellElapsed, elapsed, BitVec.toNat_sub]
  congr 3
  omega

/-- The saturating counter in numbers (42_hop_sync.md R173). -/
theorem satInc_eq (x : Byte) : satInc x = BitVec.ofNat 8 (min (x.toNat + 1) 255) := by
  unfold satInc
  split
  · subst x; rfl
  · have := x.isLt
    have hne : x.toNat ≠ 255 := fun h => ‹x ≠ 255› (BitVec.eq_of_toNat_eq h)
    apply BitVec.eq_of_toNat_eq
    simp only [BitVec.ofNat_eq_ofNat, BitVec.toNat_add, BitVec.toNat_ofNat]
    omega

theorem badThreshold_le {c : Config} (h : c.wf) : c.badThreshold ≤ 255 := by
  obtain ⟨-, ⟨-, -, -, hle, -⟩, -⟩ := h
  exact hle

/-- A LOCKED machine counts a bad attempt without saturating: it is below the threshold (10_state.md R55 (c)). -/
theorem satInc_of_locked {s : State} (h : s.RegInv) (hlocked : s.sync.locked = true) :
    satInc s.sync.cb = BitVec.ofNat 8 (s.sync.cb.toNat + 1) ∧ (satInc s.sync.cb).toNat = s.sync.cb.toNat + 1 := by
  obtain ⟨hcfg, -, -, -, hbelow, -⟩ := h
  have hle := badThreshold_le hcfg
  have hlt := hbelow hlocked
  have hmin : min (s.sync.cb.toNat + 1) 255 = s.sync.cb.toNat + 1 := by omega
  rw [satInc_eq, hmin]
  exact ⟨rfl, by rw [BitVec.toNat_ofNat]; omega⟩

/-- The resync trigger looks at the counter after the attempt (42_hop_sync.md R177). -/
theorem resyncDue_counted {s : State} (h : s.RegInv) (hlocked : s.sync.locked = true) (o : HpOutcome) :
    resyncDue s.cfg { s.sync with cb := satInc s.sync.cb, hpOutcome := o } = true ↔
      s.cfg.badThreshold ≤ s.sync.cb.toNat + 1 := by
  obtain ⟨-, hnat⟩ := satInc_of_locked h hlocked
  simp [resyncDue, hlocked, hnat]

/-- The row of a bad attempt in LOCKED (42_hop_sync.md R181). -/
theorem syncAfter_bad_locked {s : State} {o : HpOutcome} (ho : o = .timeout ∨ o = .corrupt) (t : Word)
    (hlocked : s.sync.locked = true) :
    syncAfter s o t =
      if s.sync.cb.toNat + 1 < s.cfg.badThreshold then
        { s.sync with cb := BitVec.ofNat 8 (s.sync.cb.toNat + 1), shouldHop := true, hpOutcome := o }
      else { s.sync with locked := false, cb := 0, shouldHop := dwellElapsed s t, hpOutcome := o } := by
  rcases ho with rfl | rfl <;> exact if_pos hlocked

/-- The row of a bad attempt in SEARCHING (42_hop_sync.md R181). -/
theorem syncAfter_bad_searching {s : State} {o : HpOutcome} (ho : o = .timeout ∨ o = .corrupt) (t : Word)
    (hsearching : s.sync.locked = false) :
    syncAfter s o t =
      { s.sync with
        cb := BitVec.ofNat 8 (min (s.sync.cb.toNat + 1) 255), shouldHop := dwellElapsed s t, hpOutcome := o } := by
  rcases ho with rfl | rfl <;> exact if_neg (Bool.eq_false_iff.mp hsearching)

/-- The rows of a bad attempt are its count, the resync trigger and the verdict (42_hop_sync.md R173, R177, R178). -/
theorem conclude_bad_sync {s u : State} (h : s.RegInv) (t : Word) {o : HpOutcome} (ho : o = .timeout ∨ o = .corrupt)
    (hcfg : u.cfg = s.cfg) (hsync : u.sync = { s.sync with cb := satInc s.sync.cb, hpOutcome := o }) :
    (conclude t u).sync = syncAfter s o t := by
  have hpaced := paced_eq_dwellElapsed s t
  rw [conclude_sync, hcfg, hsync]
  dsimp only
  rw [hpaced]
  rcases s.sync.locked.eq_false_or_eq_true with hlocked | hlocked
  · obtain ⟨hcount, -⟩ := satInc_of_locked h hlocked
    rw [syncAfter_bad_locked ho t hlocked]
    simp only [resyncDue_counted h hlocked]
    split_ifs
    · omega
    · simp
    · simp [hcount, hlocked]
    · omega
  · simp [syncAfter_bad_searching ho t hlocked, resyncDue, satInc_eq, hlocked]

/-- The row of a good frame: the counter is 0, below every threshold (42_hop_sync.md R176, R177). -/
theorem conclude_good_sync {s u : State} (t : Word) (hthreshold : 1 ≤ u.cfg.badThreshold) (hsync : u.sync = s.sync) :
    (conclude t (handleGood t u)).sync = syncAfter s .good t := by
  have hdue : resyncDue (handleGood t u).cfg (handleGood t u).sync = false := by
    simpa [resyncDue, handleGood] using Nat.one_le_iff_ne_zero.mp hthreshold
  rw [conclude_sync, hdue]
  simp [handleGood, syncAfter, hsync]

/-! ### The handler -/

/-- The handler does what its path says (42_hop_sync.md R179). -/
theorem handle_eq_afterHandle {s : State} (h : s.RegInv) (timedOut : Bool) :
    handle timedOut s = afterHandle timedOut s := by
  refine handleAt_cases (P := (· = afterHandle timedOut s)) ?_ ?_ ?_ ?_
  · rintro rfl
    rw [conclude_eq, conclude_bad_sync (u := handleTimeout s.sampling) h _ (.inl rfl) rfl rfl]
    rfl
  · rintro rfl hcrc
    rw [conclude_eq, conclude_bad_sync (u := handleCorrupt (verifyDec (normalise s.sampling))) h _ (.inr rfl) rfl rfl,
      afterHandle, handlerPath_corrupt (s := s) hcrc]
    rfl
  · rintro rfl hcrc haddr
    rw [afterHandle, handlerPath_wrongStation (s := s) hcrc haddr]
    rfl
  · rintro rfl hcrc haddr
    rw [conclude_eq, conclude_good_sync (s := s) (u := verifyDec (normalise s.sampling)) _ (badThreshold_pos h.1) rfl,
      afterHandle, handlerPath_good (s := s) hcrc haddr]
    rfl

/-! ### The result word -/

/-- A field above `k` lower bits of a packed word. -/
theorem ofNat_field (a k : Nat) {x : Nat} (hx : x < 2 ^ k) :
    BitVec.ofNat 32 (a * 2 ^ k + x) = BitVec.ofNat 32 a <<< k ||| BitVec.ofNat 32 x := by
  rw [Nat.mul_comm, Nat.two_pow_add_eq_or_of_lt hx, BitVec.ofNat_or]
  congr 1
  apply BitVec.eq_of_toNat_eq
  simp [Nat.shiftLeft_eq, Nat.mul_comm]

theorem bit_lt (b : Bool) : bit b < 2 := by cases b <;> decide

theorem outcomeNat_lt (o : HpOutcome) : outcomeNat o < 4 := by cases o <;> decide

theorem outcome_code_setWidth (o : HpOutcome) : o.code.setWidth 32 = BitVec.ofNat 32 (outcomeNat o) := by
  cases o <;> rfl

theorem flagAt_eq (b : Bool) (i : Nat) : flagAt b i = BitVec.ofNat 32 (bit b) <<< i := by
  cases b <;> rfl

/-- `hp_result` packs its five fields (42_hop_sync.md R171). -/
theorem hpResult_eq (s : State) : hpResult s = BitVec.ofNat 32 (hpResultNat s) := by
  have hlocked := bit_lt s.sync.locked
  have houtcome := outcomeNat_lt s.sync.hpOutcome
  have hvalid := bit_lt s.rd.valid
  have hhop := bit_lt s.sync.shouldHop
  have hnested : hpResultNat s = s.sync.cb.toNat * 2 ^ 5 + (bit s.sync.locked * 2 ^ 4 +
      (outcomeNat s.sync.hpOutcome * 2 ^ 2 + (bit s.rd.valid * 2 ^ 1 + bit s.sync.shouldHop))) := by
    simp only [hpResultNat]
    omega
  rw [hnested, ofNat_field _ 5 (by omega), ofNat_field _ 4 (by omega), ofNat_field _ 2 (by omega),
    ofNat_field _ 1 (by omega)]
  simp only [hpResult, flagAt_eq, outcome_code_setWidth, BitVec.ofNat_toNat, BitVec.or_assoc, BitVec.shiftLeft_zero]

/-! ### The commands -/

/-- What a handler command out of fault leaves, however it learns whether the receive timed out
(42_hop_sync.md R171, R172). -/
theorem judge_handle {s : State} (h : s.RegInv) (hf : s.flt.fault = false) (timedOut : Bool) :
    (.next (judge s true (respond .ok (hpResult (handle timedOut s)) (handle timedOut s))) :
        Host.Outcome State Fault Refusal) =
      .next (ended .ok (hpResultNat (afterHandle timedOut s)) (afterHandle timedOut s)) := by
  rw [← handle_eq_afterHandle h]
  exact next_judge_ended hf (hpResult_eq _)

theorem exec_hpktI {s : State} (h : s.RegInv) (hf : s.flt.fault = false) (f : Bool) :
    exec (.hpktI f) s = .next (ended .ok (hpResultNat (afterHandle f s)) (afterHandle f s)) := judge_handle h hf f

theorem exec_hpktR {s : State} (h : s.RegInv) (hf : s.flt.fault = false) :
    exec .hpktR s =
      .next (ended .ok (hpResultNat (afterHandle s.drv.rxTimedOut s)) (afterHandle s.drv.rxTimedOut s)) :=
  judge_handle h hf s.drv.rxTimedOut

/-- Settles O32: both commands are the handler, which is `afterHandle`. -/
theorem handlerFollowsTheTransitionTable : Obligations.HandlerFollowsTheTransitionTable := by
  unfold Obligations.HandlerFollowsTheTransitionTable
  exact fun _ f h hf => ⟨exec_hpktI h hf f, exec_hpktR h hf⟩

/-! ### A run of timeouts -/

theorem runAll_append_singleton {is : List Instr} {i : Instr} {s t : State} (h : runAll is s = .next t) :
    runAll (is ++ [i]) s = exec i t := by
  induction is generalizing s with
  | nil =>
    cases h
    simp only [List.nil_append, runAll]
    cases exec i t <;> rfl
  | cons j is ih =>
    simp only [List.cons_append, runAll] at h ⊢
    cases hj : exec j s with
    | next u =>
      rw [hj] at h
      exact ih h
    | fault r => rw [hj] at h; cases h
    | refused r => rw [hj] at h; cases h

/-- `t` is `s` after `n` timeouts, below the threshold: LOCKED with the counter at `n`, what the next handler command
reads of the configuration and the RawFrame as in `s`. -/
structure Counted (s : State) (n : Nat) (t : State) : Prop where
  regInv : t.RegInv
  fault : t.flt.fault = false
  cfg : t.cfg = s.cfg
  raw : t.buf.raw = s.buf.raw
  locked : t.sync.locked = true
  cb : t.sync.cb.toNat = n

/-- The commands after the first `n` timeouts find the frame on the same path. -/
theorem Counted.handlerPath_eq {s t : State} {n : Nat} (h : Counted s n t) (b : Bool) :
    handlerPath t b = handlerPath s b := by
  unfold handlerPath State.rawAt
  rw [h.cfg, h.raw]

/-- One more timeout below the threshold is counted (42_hop_sync.md R181). -/
theorem Counted.timeout {s t : State} {n : Nat} (h : Counted s n t) (hlt : n + 1 < s.cfg.badThreshold) :
    ∃ u, exec (.hpktI true) t = .next u ∧ Counted s (n + 1) u := by
  have hrow : (afterHandle true t).sync = _ := syncAfter_bad_locked (.inl rfl) t.env.afterLag.now h.locked
  rw [h.cfg, h.cb, if_pos hlt] at hrow
  have hle := badThreshold_le h.regInv.1
  rw [h.cfg] at hle
  have hreg := regInv_handle h.regInv true
  rw [handle_eq_afterHandle h.regInv] at hreg
  exact ⟨_, exec_hpktI h.regInv h.fault true,
    { regInv := hreg
      fault := h.fault
      cfg := h.cfg
      raw := h.raw
      locked := by simp [ended, hrow, h.locked]
      cb := by simp [ended, hrow]; omega }⟩

/-- The timeout that reaches the threshold loses the lock (42_hop_sync.md R180). -/
theorem Counted.lastTimeout {s t : State} {n : Nat} (h : Counted s n t) (heq : n + 1 = s.cfg.badThreshold) :
    ∃ u, exec (.hpktI true) t = .next u ∧ u.sync.locked = false ∧ u.sync.cb = 0 := by
  have hrow : (afterHandle true t).sync = _ := syncAfter_bad_locked (.inl rfl) t.env.afterLag.now h.locked
  rw [h.cfg, h.cb, if_neg (by omega)] at hrow
  exact ⟨_, exec_hpktI h.regInv h.fault true, by simp [ended, hrow], by simp [ended, hrow]⟩

/-- A good frame before the threshold puts the counter back (42_hop_sync.md R176). -/
theorem Counted.goodFrame {s t : State} {n : Nat} (h : Counted s n t) (hgood : handlerPath s false = .good) :
    ∃ u, exec (.hpktI false) t = .next u ∧ u.sync.locked = true ∧ u.sync.cb = 0 := by
  have hrow : (afterHandle false t).sync = syncAfter t (handlerPath t false) t.env.afterLag.now := rfl
  rw [h.handlerPath_eq, hgood] at hrow
  exact ⟨_, exec_hpktI h.regInv h.fault false, by simp [ended, hrow, syncAfter], by simp [ended, hrow, syncAfter]⟩

/-- Fewer timeouts than the threshold's are counted one by one. -/
theorem runAll_timeouts {s : State} {n : Nat} (h : Counted s 0 s) (hn : n < s.cfg.badThreshold) :
    ∃ t, runAll (List.replicate n (.hpktI true)) s = .next t ∧ Counted s n t := by
  induction n with
  | zero => exact ⟨s, rfl, h⟩
  | succ n ih =>
    obtain ⟨t, hrun, ht⟩ := ih (by omega)
    rw [List.replicate_succ', runAll_append_singleton hrun]
    exact ht.timeout hn

/-- Settles O34: the timeouts below the threshold are `runAll_timeouts`, the threshold's is one more. -/
theorem thresholdTimeoutsLoseTheLock : Obligations.ThresholdTimeoutsLoseTheLock := by
  unfold Obligations.ThresholdTimeoutsLoseTheLock
  intro s n h hf hlocked hcb hn
  have hstart : Counted s 0 s := ⟨h, hf, rfl, rfl, hlocked, by rw [hcb]; rfl⟩
  rcases Nat.lt_or_eq_of_le hn with hlt | heq
  · obtain ⟨t, hrun, ht⟩ := runAll_timeouts hstart hlt
    exact ⟨t, hrun, fun _ => ⟨ht.locked, ht.cb, ht.goodFrame⟩, fun heq => absurd hlt (by omega)⟩
  · obtain ⟨m, rfl⟩ : ∃ m, n = m + 1 := Nat.exists_eq_add_one.mpr (heq ▸ badThreshold_pos h.1)
    obtain ⟨t, hrun, ht⟩ := runAll_timeouts hstart (n := m) (by omega)
    obtain ⟨u, hlast, hsearching, hzero⟩ := ht.lastTimeout heq
    refine ⟨u, ?_, fun hlt => absurd hlt (by omega), fun _ => ⟨hsearching, hzero⟩⟩
    rw [List.replicate_succ', runAll_append_singleton hrun, hlast]

end Sys2Proof.Machine

/-! The paced hops of a SEARCHING machine (42_hop_sync.md R178, R182). The verdict of the handler is paced by true time
(`handle_paced`); in `LOOP.STEP` nothing before the handler hops or answers, and nothing after it touches the
verdict. -/

namespace Sys2Proof.Machine

open Sys2Proof.Spec

/-! ### The verdict in true time -/

/-- `last_hop` was stamped at the true time `hopTime`, which is past (10_state.md R42, R47). -/
def State.HoppedAt (hopTime : Nat) (s : State) : Prop :=
  s.sync.lastHop = BitVec.ofNat 32 hopTime ∧ hopTime ≤ s.env.time

/-- Of a SEARCHING machine: it says to hop only after a dwell from `hopTime`, and then it does, unless the frame was
another station's or `now` has wrapped (42_hop_sync.md R175, R178). -/
def State.Paced (hopTime : Nat) (s : State) : Prop :=
  s.sync.locked = false →
    (s.sync.shouldHop = true → hopTime + s.cfg.dwell.toNat ≤ s.env.time) ∧
      (s.sync.hpOutcome ≠ .wrongStation → s.env.time < hopTime + 2 ^ 32 →
        hopTime + s.cfg.dwell.toNat ≤ s.env.time → s.sync.shouldHop = true)

/-- Elapsed time is true time modulo 2^32 (10_state.md R47). -/
theorem elapsed_ofNat {a b : Nat} (h : a ≤ b) :
    (elapsed (BitVec.ofNat 32 b) (BitVec.ofNat 32 a)).toNat = (b - a) % 2 ^ 32 := by
  rw [elapsed, BitVec.toNat_sub, BitVec.toNat_ofNat, BitVec.toNat_ofNat]
  omega

theorem paced_iff {s : State} {hopTime time : Nat} (hlast : s.sync.lastHop = BitVec.ofNat 32 hopTime)
    (hle : hopTime ≤ time) :
    paced s.cfg (BitVec.ofNat 32 time) s.sync.lastHop = true ↔ s.cfg.dwell.toNat ≤ (time - hopTime) % 2 ^ 32 := by
  rw [hlast, paced, decide_eq_true_iff, elapsed_ofNat hle]

/-- Steps 5 and 6 leave a SEARCHING machine with the paced verdict (42_hop_sync.md R178). -/
theorem conclude_searching {s : State} {t : Word} (h : (conclude t s).sync.locked = false) :
    (conclude t s).sync.shouldHop = paced s.cfg t s.sync.lastHop := by
  rw [conclude_sync] at h ⊢
  split
  · rfl
  · rename_i hdue
    rw [if_neg hdue] at h
    have hsearching : s.sync.locked = false := h
    simp [hsearching]

/-- What steps 5 and 6 say is paced by the true time of their sample. -/
theorem conclude_paced {s : State} {hopTime : Nat} (h : s.HoppedAt hopTime) : (conclude s.env.now s).Paced hopTime := by
  obtain ⟨hlast, hle⟩ := h
  intro hsearching
  have hverdict := (conclude_searching hsearching).symm ▸ paced_iff (s := s) hlast hle
  rw [conclude_eq]
  refine ⟨fun hhop => ?_, fun _ hwrap hdwell => ?_⟩
  · have := (hverdict.mp hhop).trans (Nat.mod_le _ _)
    dsimp only
    omega
  · dsimp only at hwrap hdwell ⊢
    refine hverdict.mpr ?_
    rw [Nat.mod_eq_of_lt (by omega)]
    omega

/-- Another station's frame never says to hop (42_hop_sync.md R175). -/
theorem handleWrongStation_paced (s : State) (hopTime : Nat) : (handleWrongStation s).Paced hopTime :=
  fun _ => ⟨nofun, fun h => absurd rfl h⟩

/-- The verdict of the handler is paced. -/
theorem handle_paced {s : State} {hopTime : Nat} (h : s.HoppedAt hopTime) (b : Bool) :
    (handle b s).Paced hopTime := by
  have hs : s.sampling.HoppedAt hopTime := ⟨h.1, h.2.trans (time_le_afterLag s.env)⟩
  exact handleAt_cases (P := State.Paced hopTime)
    (fun _ => conclude_paced (s := handleTimeout s.sampling) hs)
    (fun _ _ => conclude_paced (s := handleCorrupt (verifyDec (normalise s.sampling))) hs)
    (fun _ _ _ => handleWrongStation_paced _ _)
    (fun _ _ _ => conclude_paced (s := handleGood _ (verifyDec (normalise s.sampling))) hs)

/-- A timeout is no frame of another station. -/
theorem handle_true_outcome (s : State) : (handle true s).sync.hpOutcome = .timeout := by
  show (conclude _ (handleTimeout s.sampling)).sync.hpOutcome = .timeout
  rw [conclude_sync]
  split <;> rfl

/-- Settles O35: the verdict is `handle_paced`, and a timeout is no frame of another station. -/
theorem searchingHopsArePaced : Obligations.SearchingHopsArePaced := by
  unfold Obligations.SearchingHopsArePaced
  intro f s t hopTime hf hlast hle hexec hsearching
  have hrun : exec (.hpktI f) s = .next (respond .ok (hpResult (handle f s)) (handle f s)) :=
    congrArg Host.Outcome.next (judge_of_clear hf _)
  cases hrun.symm.trans hexec
  have hpaced := handle_paced ⟨hlast, hle⟩ f hsearching
  rw [handle_cfg] at hpaced
  refine ⟨hpaced.1, fun htimeout => hpaced.2 ?_⟩
  subst htimeout
  rw [handle_true_outcome]
  decide

/-! ### Before and after the handler -/

/-- What holds of two properties of a piece holds together. -/
theorem Res.Sat.and {α : Type} {r : Res α} {Q Q' : α → State → Prop} {E E' : State → Prop} (h : r.Sat Q E)
    (h' : r.Sat Q' E') : r.Sat (fun a s => Q a s ∧ Q' a s) (fun s => E s ∧ E' s) := by
  cases r with
  | ok a s => exact ⟨h, h'⟩
  | stop s => exact ⟨h, h'⟩

/-- No piece of a command answers, and where one stops it does not answer `OK`. -/
theorem silent_closed : Closed (fun s => s.resp = none) (fun s => ¬ s.AnswersOk) where
  event _ _ _ _ h := h
  issue _ h := h
  phase _ _ h := h
  irqPrev _ _ h := h
  mode _ _ h := h
  tune _ _ h := h
  rssi _ _ h := h
  timedOut _ _ h := h
  raw _ _ _ h := h
  handle _ _ h := by simpa using h
  hop _ h := h
  cut _ h _ := by simp [State.AnswersOk, h]
  fail _ _ _ _ _ := by simp [State.AnswersOk]
  poll _ _ h _ := by simp [State.AnswersOk, h]

/-- `u` is inside a command that began in `s`, with no answer, and only registers of `i` have changed. -/
structure Reaches (i : Instr) (s u : State) : Prop where
  silent : u.resp = none
  advances : Advances s u
  own : WritesOwn i s u

/-- What the three say of a piece, put together. -/
theorem reaches_sat {α : Type} {i : Instr} {s : State} {r : Res α}
    (hsilent : r.Sat (fun _ u => u.resp = none) fun u => ¬ u.AnswersOk)
    (hadv : r.Sat (fun _ => Advances s) (Advances s)) (hown : r.Sat (fun _ => WritesOwn i s) (WritesOwn i s)) :
    r.Sat (fun _ => Reaches i s) fun u => ¬ u.AnswersOk :=
  (hsilent.and (hadv.and hown)).mono (fun _ _ ⟨h1, h2, h3⟩ => ⟨h1, h2, h3⟩) fun _ ⟨h, _⟩ => h

/-- A command that does not hop leaves the last hop where it was. -/
theorem Reaches.hoppedAt {i : Instr} {s u : State} {hopTime : Nat} (h : Reaches i s u) (hi : hopCommand i = false)
    (hs : s.HoppedAt hopTime) : u.HoppedAt hopTime := by
  have hlast : u.sync.lastHop = s.sync.lastHop := by
    by_contra hne
    exact Bool.false_ne_true (hi.symm.trans (h.own.hop (.inr (.inr (.inr hne)))))
  exact ⟨hlast.trans hs.1, hs.2.trans h.advances.2.2⟩

/-- A command that is no handler command leaves a verdict to hop paced while true time goes on. -/
theorem Reaches.paced {i : Instr} {s u : State} {hopTime : Nat} (h : Reaches i s u) (hi : handlerCommand i = false)
    (hhop : s.sync.shouldHop = true) (hs : s.Paced hopTime) : u.Paced hopTime := by
  obtain ⟨hcfg, -, htime⟩ := h.advances
  have hkept := mt h.own.sync (Bool.eq_false_iff.mp hi)
  simp only [not_or, not_not] at hkept
  obtain ⟨hlocked, -, -, hshould, -⟩ := hkept
  intro hsearching
  have hdwell := (hs (hlocked ▸ hsearching)).1 hhop
  refine ⟨fun _ => ?_, fun _ _ _ => hshould.trans hhop⟩
  rw [hcfg]
  exact hdwell.trans htime

theorem Reaches.refl (i : Instr) {s : State} (h : s.resp = none) : Reaches i s s := ⟨h, .refl s, .refl i s⟩

section
variable {s u : State}

theorem Reaches.receive (h : Reaches .receiveD s u) (timeout : Nat) (k : Bool → Resume) :
    (receive timeout k u).Sat (fun _ => Reaches .receiveD s) fun v => ¬ v.AnswersOk :=
  reaches_sat (silent_closed.receive timeout k h.silent) ((advances_closed s).receive timeout k h.advances)
    (h.own.receive rfl timeout k)

theorem Reaches.receiveTail (h : Reaches .receiveD s u) (fired : Bool) (v : Byte) :
    (receiveTail fired v u).Sat (fun _ => Reaches .receiveD s) fun v => ¬ v.AnswersOk :=
  reaches_sat (silent_closed.receiveTail fired v h.silent) ((advances_closed s).receiveTail fired v h.advances)
    (h.own.receiveTail rfl fired v)

theorem Reaches.pollOnce (h : Reaches .receiveD s u) (k : Resume) :
    (pollOnce k u).Sat (fun _ => Reaches .receiveD s) fun v => ¬ v.AnswersOk :=
  reaches_sat (silent_closed.pollOnce k h.silent) ((advances_closed s).pollOnce k h.advances) (h.own.pollOnce rfl k)

theorem Reaches.busRead (h : Reaches .receiveD s u) (a : Byte) :
    (busRead a u).Sat (fun _ => Reaches .receiveD s) fun v => ¬ v.AnswersOk :=
  reaches_sat (silent_closed.busRead a h.silent) ((advances_closed s).busRead a h.advances) (h.own.busRead rfl a)

theorem Reaches.hopAndTune (h : Reaches .loopInit s u) :
    (hopAndTune u).Sat (fun _ => Reaches .loopInit s) fun v => ¬ v.AnswersOk :=
  reaches_sat (silent_closed.hopAndTune h.silent) ((advances_closed s).hopAndTune h.advances)
    ((h.own.nextHop rfl).setFrequency rfl _ rfl)

end

/-! ### The commands and their turns -/

/-- An answer `OK` comes with a paced verdict. -/
def State.OkPaced (hopTime : Nat) (s : State) : Prop := s.AnswersOk → s.Paced hopTime

theorem okPaced_finish {hopTime : Nat} {r : Res Word}
    (h : r.Sat (fun _ => State.Paced hopTime) fun u => ¬ u.AnswersOk) : r.finish.OkPaced hopTime :=
  have hstop : r.Sat (fun _ => State.Paced hopTime) (State.OkPaced hopTime) :=
    h.mono (fun _ _ hu => hu) fun _ hu hok => absurd hok hu
  hstop.finish (fun _ _ hu _ _ => hu) fun _ _ hu _ _ => hu

/-- The decision of `LOOP.STEP` is paced, and stays so through the hop it asks for (46_receive_loop.md R257). -/
theorem loopDecide_paced {s : State} {hopTime : Nat} (hhop : s.HoppedAt hopTime) (hresp : s.resp = none) :
    (loopDecide s).Sat (fun _ => State.Paced hopTime) fun u => ¬ u.AnswersOk := by
  have hpaced := handle_paced hhop s.drv.rxTimedOut
  have hstart : Reaches .loopInit _ (handle s.drv.rxTimedOut s) := .refl .loopInit (by simpa using hresp)
  unfold loopDecide
  dsimp only
  split
  · rename_i hshould
    exact hstart.hopAndTune.andThen fun _ _ h => h.paced rfl hshould hpaced
  · exact hpaced

/-- After its receive a `LOOP.STEP` is where it began, as far as the last hop goes. -/
theorem Reaches.loopDecide {s u : State} {hopTime : Nat} (h : Reaches .receiveD s u) (hs : s.HoppedAt hopTime) :
    (loopDecide u).Sat (fun _ => State.Paced hopTime) fun v => ¬ v.AnswersOk :=
  loopDecide_paced (h.hoppedAt rfl hs) h.silent

section
variable {s : State} {hopTime : Nat} (hhop : s.HoppedAt hopTime) (hresp : s.resp = none)
include hhop hresp

theorem loopTurn_okPaced : (loopTurn s).finish.OkPaced hopTime :=
  okPaced_finish <|
    ((Reaches.refl .receiveD hresp).receive s.cfg.dwell.toNat .loopStep).andThen fun _ _ h => h.loopDecide hhop

theorem resume_okPaced (fired : Bool) : (resume (.loopStep fired) s).OkPaced hopTime :=
  okPaced_finish <|
    ((Reaches.refl .receiveD hresp).pollOnce (.loopStep fired)).andThen fun _ _ h1 =>
    (h1.busRead _).andThen fun v _ h2 =>
    (h2.receiveTail fired v).andThen fun _ _ h3 => h3.loopDecide hhop

/-- The step that begins a handler command. -/
theorem exec_okPaced {i : Instr} (hi : handlerCommand i = true) : GoesTo (State.OkPaced hopTime) (exec i s) := by
  have hans : ∀ b v, (respond .ok v (handle b s)).OkPaced hopTime := fun b _ _ => handle_paced hhop b
  have hfault : (refuse .errFault s).OkPaced hopTime := fun ⟨_, h⟩ => by cases h
  have harg : (refuse .errArg s).OkPaced hopTime := fun ⟨_, h⟩ => by cases h
  cases i with
  | hpktI f => exact ⟨_, rfl, judge_cases hfault harg fun _ _ => hans f _⟩
  | hpktR => exact ⟨_, rfl, judge_cases hfault harg fun _ _ => hans _ _⟩
  | loopStep => exact ⟨_, rfl, judge_cases hfault harg fun _ _ => loopTurn_okPaced hhop hresp⟩
  | _ => cases hi

theorem turnOf_okPaced {i : Instr} (hi : handlerCommand i = true) {t : State} (h : turnOf i s t) :
    t.OkPaced hopTime ∧ t.cfg = s.cfg := by
  rcases h with hexec | ⟨⟨fired, k, hk, hp⟩, hr, hstep⟩
  · obtain ⟨u, hu, hok⟩ := exec_okPaced hhop hresp hi
    obtain ⟨w, hw, hcfg, -⟩ := exec_goesPast i s
    cases hu.symm.trans hexec
    cases hw.symm.trans hexec
    exact ⟨hok, hcfg⟩
  · obtain ⟨hcfg, -⟩ := step_advances hstep
    cases (step_of_poll hr hp).symm.trans hstep
    cases pollOf_handler hi hk
    exact ⟨resume_okPaced (s := s.unpresent) hhop rfl fired, hcfg⟩

end

/-- Settles O58: a turn of a handler command that answers `OK` leaves a paced verdict. -/
theorem everySearchingVerdictIsPaced : Obligations.EverySearchingVerdictIsPaced := by
  unfold Obligations.EverySearchingVerdictIsPaced
  intro i s t hopTime hi _ hresp hlast hle hturn hok hsearching
  obtain ⟨hpaced, hcfg⟩ := turnOf_okPaced ⟨hlast, hle⟩ hresp hi hturn
  rw [← hcfg]
  exact hpaced hok hsearching

end Sys2Proof.Machine

/-! The channel-plan frequency router (43_channel_plan.md). Inside the plan both tables have their entry, so the three
commands answer with it. Hops in a row read the hop table from the present index on and around its end
(`hopChan_hops`): the channels of one period are the table rotated, and the table is a permutation of the plan's
indices (`hop_perm_range`). -/

namespace Sys2Proof.Machine

open Sys2Proof.Spec

/-! ### The tables -/

section
variable {c : Config} (h : c.wf) {i : Nat} (hi : i < c.channels)
include h hi

theorem getElem?_freq_of_lt : c.freq[i]? = some (c.freqAt i) := by
  obtain ⟨⟨-, -, hfreq, -⟩, -⟩ := h
  simp [Config.freqAt, hfreq, hi]

theorem getElem?_hop_of_lt : c.hop[i]? = some (c.hopAt i) := by
  obtain ⟨⟨-, -, -, hhop, -⟩, -⟩ := h
  simp [Config.hopAt, hhop, hi]

/-- The hop table holds channel indices (20_memory.md R62). -/
theorem hopAt_lt_channels : c.hopAt i < c.channels := by
  have hentry := getElem?_hop_of_lt h hi
  obtain ⟨⟨-, -, -, -, hlt, -⟩, -⟩ := h
  exact hlt _ (List.mem_of_getElem? hentry)

end

/-- The hop table is a bijection of the channel indices (20_memory.md R62): it has no index twice and room for all. -/
theorem hop_perm_range {c : Config} (h : c.wf) : c.hop.Perm (List.range c.channels) := by
  obtain ⟨⟨-, -, -, hlen, hlt, hnodup⟩, -⟩ := h
  have hsub : c.hop.Subperm (List.range c.channels) :=
    List.subperm_of_subset hnodup fun x hx => List.mem_range.mpr (hlt x hx)
  exact hsub.perm_of_length_le (by simp [hlen])

/-- The table read from an index on and around its end is the table rotated. -/
theorem map_hopAt_eq_rotate {c : Config} (h : c.wf) (i : Nat) :
    (List.range c.channels).map (fun k => c.hopAt ((i + k) % c.channels)) = c.hop.rotate i := by
  have hpos := (channels_bounds h).1
  have hlen : c.hop.length = c.channels := by simpa using (hop_perm_range h).length_eq
  apply List.ext_getElem?
  intro k
  rcases Nat.lt_or_ge k c.channels with hk | hk
  · rw [List.getElem?_rotate (hlen ▸ hk), hlen, getElem?_hop_of_lt h (Nat.mod_lt _ hpos), Nat.add_comm k]
    simp [hk]
  · rw [List.getElem?_eq_none (by simpa using hk), List.getElem?_eq_none (by simpa [hlen] using hk)]

/-! ### The commands -/

section
variable {s : State} {b : Byte} (hf : s.flt.fault = false) (hb : b.toNat < s.cfg.channels)
include hf hb

theorem next_judge_of_inPlan {v : Word} {n : Nat} (hv : v = BitVec.ofNat 32 n) :
    (.next (judge s (s.cfg.planInRange b) (respond .ok v s)) : Host.Outcome State Fault Refusal) =
      .next (ended .ok n s) := by
  rw [(planInRange_iff s.cfg b).mpr hb]
  exact next_judge_ended hf hv

theorem exec_planFreq_of_inRange : exec (.planFreq b) s = .next (ended .ok (s.cfg.freqAt b.toNat).toNat s) :=
  next_judge_of_inPlan hf hb (by simp)

theorem exec_planHop_of_inRange : exec (.planHop b) s = .next (ended .ok (s.cfg.hopAt b.toNat) s) :=
  next_judge_of_inPlan hf hb rfl

end

/-- Settles O36: in the plan the tables have the entries the commands answer with. -/
theorem planReadsAnswerTheTables : Obligations.PlanReadsAnswerTheTables := by
  unfold Obligations.PlanReadsAnswerTheTables
  intro s b hcfg hf
  refine ⟨wordOf_field rfl 0x40 b, wordOf_field rfl 0x41 b, fun hb => ⟨?_, ?_⟩, fun hb => ⟨?_, ?_⟩⟩
  · exact ⟨_, getElem?_freq_of_lt hcfg hb, exec_planFreq_of_inRange hf hb⟩
  · exact ⟨_, getElem?_hop_of_lt hcfg hb, hopAt_lt_channels hcfg hb, exec_planHop_of_inRange hf hb⟩
  · exact exec_of_argument_outOfRange (.inl hf) (Nat.not_lt.mpr hb)
  · exact exec_of_argument_outOfRange (.inl hf) (Nat.not_lt.mpr hb)

/-- `s` after a `NEXT_HOP` that is not refused (43_channel_plan.md R193). -/
def hopEnded (s : State) : State := ended .ok s.nextFreq.toNat (nextHop s)

theorem exec_nextHop {s : State} (hf : s.flt.fault = false) : exec .nextHop s = .next (hopEnded s) :=
  next_judge_ended hf (by simp [State.nextFreq])

/-- Settles O37: the state is `hopEnded`, and the invariant puts both entries in their tables. -/
theorem nextHopTakesTheNextChannel : Obligations.NextHopTakesTheNextChannel := by
  unfold Obligations.NextHopTakesTheNextChannel
  refine ⟨rfl, ?_⟩
  rintro s ⟨hcfg, -, hidx, -⟩ hf
  exact ⟨s.nextChan, s.nextFreq, getElem?_hop_of_lt hcfg hidx,
    getElem?_freq_of_lt hcfg (hopAt_lt_channels hcfg hidx), exec_nextHop hf⟩

/-! ### Hops in a row -/

/-- `t` is `s` after `n` hops, as far as the next hop reads it: in the same plan, the index `n` places on around the
end (43_channel_plan.md R193). -/
structure Hopped (s : State) (n : Nat) (t : State) : Prop where
  regInv : t.RegInv
  fault : t.flt.fault = false
  cfg : t.cfg = s.cfg
  hopIndex : t.sync.hopIndex.toNat = (s.sync.hopIndex.toNat + n) % s.cfg.channels

theorem Hopped.refl {s : State} (h : s.RegInv) (hf : s.flt.fault = false) : Hopped s 0 s := by
  refine ⟨h, hf, rfl, ?_⟩
  obtain ⟨-, -, hidx, -⟩ := h
  exact (Nat.mod_eq_of_lt hidx).symm

/-- One more hop moves the index one place on; it fits its register (00_scope.md R6). -/
theorem Hopped.hopEnded {s t : State} {n : Nat} (h : Hopped s n t) : Hopped s (n + 1) (hopEnded t) := by
  obtain ⟨hpos, hle⟩ := channels_bounds h.regInv.1
  have hlt : (t.sync.hopIndex.toNat + 1) % t.cfg.channels < 2 ^ 8 := (Nat.mod_lt _ hpos).trans_le hle
  refine ⟨regInv_nextHop h.regInv, h.fault, h.cfg, ?_⟩
  calc (Machine.hopEnded t).sync.hopIndex.toNat
      = (t.sync.hopIndex.toNat + 1) % t.cfg.channels := Nat.mod_eq_of_lt hlt
    _ = (s.sync.hopIndex.toNat + (n + 1)) % s.cfg.channels := by
        rw [h.cfg, h.hopIndex, Nat.mod_add_mod, Nat.add_assoc]

section
variable {s : State} (h : s.RegInv) (hf : s.flt.fault = false)
include h hf

theorem hopped_hops (n : Nat) : Hopped s n (hopEnded^[n] s) := by
  induction n with
  | zero => exact .refl h hf
  | succ n ih =>
    rw [Function.iterate_succ_apply']
    exact ih.hopEnded

theorem runAll_hops (n : Nat) : runAll (List.replicate n .nextHop) s = .next (hopEnded^[n] s) := by
  induction n with
  | zero => rfl
  | succ n ih =>
    rw [List.replicate_succ', runAll_append_singleton ih, Function.iterate_succ_apply']
    exact exec_nextHop (hopped_hops h hf n).fault

/-- Hop number `k` takes the entry `k` places on from the index the hops start from, around the end. -/
theorem hopChan_hops (k : Nat) :
    (hopEnded^[k + 1] s).sync.hopChan.toNat = s.cfg.hopAt ((s.sync.hopIndex.toNat + k) % s.cfg.channels) := by
  have hk := hopped_hops h hf k
  obtain ⟨hpos, hle⟩ := channels_bounds h.1
  have hlt : s.cfg.hopAt ((s.sync.hopIndex.toNat + k) % s.cfg.channels) < 2 ^ 8 :=
    (hopAt_lt_channels h.1 (Nat.mod_lt _ hpos)).trans_le hle
  have hchan : (hopEnded^[k] s).nextChan = s.cfg.hopAt ((s.sync.hopIndex.toNat + k) % s.cfg.channels) := by
    rw [State.nextChan, hk.cfg, hk.hopIndex]
  calc (hopEnded^[k + 1] s).sync.hopChan.toNat
      = (hopEnded^[k] s).nextChan % 2 ^ 8 := by rw [Function.iterate_succ_apply']; exact BitVec.toNat_ofNat _ _
    _ = s.cfg.hopAt ((s.sync.hopIndex.toNat + k) % s.cfg.channels) := by rw [hchan, Nat.mod_eq_of_lt hlt]

end

/-- The states after the hops of one period and after the next hop. -/
def hopStates (s : State) : List State := (List.range (s.cfg.channels + 1)).map fun k => hopEnded^[k + 1] s

theorem getElem?_hopStates (s : State) (k : Nat) :
    (hopStates s)[k]? = if k ≤ s.cfg.channels then some (hopEnded^[k + 1] s) else none := by
  rw [hopStates, List.getElem?_map]
  split
  · rw [List.getElem?_range (by omega), Option.map_some]
  · rw [List.getElem?_eq_none (by simp; omega), Option.map_none]

/-- The channels of one period are the hop table, read from the present index on (43_channel_plan.md R194). -/
theorem map_hopChan_hopStates {s : State} (h : s.RegInv) (hf : s.flt.fault = false) :
    ((hopStates s).take s.cfg.channels).map (fun t => t.sync.hopChan.toNat) =
      s.cfg.hop.rotate s.sync.hopIndex.toNat := by
  rw [hopStates, ← List.map_take, List.take_range, Nat.min_eq_left (Nat.le_succ _), List.map_map,
    ← map_hopAt_eq_rotate h.1]
  exact List.map_congr_left fun k _ => hopChan_hops h hf k

/-- The hop after a period takes the channel of the period's first. -/
theorem hopChan_hops_channels {s : State} (h : s.RegInv) (hf : s.flt.fault = false) :
    (hopEnded^[s.cfg.channels + 1] s).sync.hopChan = (hopEnded^[0 + 1] s).sync.hopChan := by
  apply BitVec.eq_of_toNat_eq
  rw [hopChan_hops h hf, hopChan_hops h hf, Nat.add_mod_right, Nat.add_zero]

/-- Settles O38: the channels of a period are the hop table rotated, and the table is a permutation of the indices. -/
theorem hopsVisitEveryChannelOncePerPeriod : Obligations.HopsVisitEveryChannelOncePerPeriod := by
  unfold Obligations.HopsVisitEveryChannelOncePerPeriod
  intro s h hf
  refine ⟨hopStates s, by simp [hopStates], fun k t ht => ?_, ?_, ?_⟩
  · rw [getElem?_hopStates, Option.ite_none_right_eq_some] at ht
    obtain ⟨-, ht⟩ := ht
    cases ht
    exact runAll_hops h hf (k + 1)
  · rw [map_hopChan_hopStates h hf]
    exact (List.rotate_perm _ _).trans (hop_perm_range h.1)
  · rw [getElem?_hopStates, getElem?_hopStates, if_pos le_rfl, if_pos (Nat.zero_le _)]
    exact congrArg some (hopChan_hops_channels h hf)

end Sys2Proof.Machine

/-! The transceiver register sequencer (44_transceiver.md). A command that goes through is a chain of procedures whose
whole effect is known (`push_ok`, `receive_ok`), so its next state is read off; the model's order of a push and its
mirror updates are those of the statements (`pushOrder_eq`, `tuneMirror_eq`). However a push ends, its events are the
writes of its order up to some slot (`WritesInOrder`), and the mode slot stands once in that order. -/

namespace Sys2Proof.Machine

open Sys2Proof.Spec

/-! ### The order of a push and the bytes of the mirror -/

theorem pushOrder_eq (c : Config) (b : Byte) :
    c.pushOrder b = if b &&& c.modeMask = c.modeRx then modeLast c else modeFirst c := by
  simp [Config.pushOrder, Config.isRx, modeLast, modeFirst]

theorem slots_pos {c : Config} (h : c.wf) : 1 ≤ c.slots := by
  obtain ⟨-, -, ⟨hslots, -⟩, -⟩ := h
  omega

theorem modeFirst_eq_cons {c : Config} (h : 1 ≤ c.slots) : modeFirst c = 0 :: List.range' 1 (c.slots - 1) := by
  obtain ⟨n, hn⟩ := Nat.exists_eq_add_of_le' h
  simp [modeFirst, hn, List.range_eq_range', List.range'_succ]

/-- A push writes slots of the mirror only (44_transceiver.md R212). -/
theorem lt_slots_of_mem_pushOrder {c : Config} (h : 1 ≤ c.slots) {b : Byte} {k : Nat} (hk : k ∈ c.pushOrder b) :
    k < c.slots := by
  rw [pushOrder_eq] at hk
  split at hk
  · simp only [modeLast, List.mem_append, List.mem_range'_1, List.mem_singleton] at hk
    omega
  · exact List.mem_range.mp hk

/-- The carrier byte at bit `i` of the frequency word (44_transceiver.md R210). -/
theorem extractLsb'_carrier (n : Nat) {i : Nat} (hi : i ≤ 16) :
    (BitVec.ofNat 24 n).extractLsb' i 8 = BitVec.ofNat 8 (n / 2 ^ i) := by
  apply BitVec.eq_of_getLsbD_eq
  intro j hj
  have hbit : i + j < 24 := by omega
  rw [BitVec.getLsbD_extractLsb', BitVec.getLsbD_ofNat, BitVec.getLsbD_ofNat, Nat.testBit_div_two_pow]
  simp [hj, hbit, Nat.add_comm]

/-- The mirror change of a tuning is the document's (44_transceiver.md R217). -/
theorem tuneMirror_eq (hz : Word) (s : State) : tuneMirror hz s = withMirror (tunedMirror s hz) s := by
  simp only [tuneMirror, setCarrier, extractLsb'_carrier _ (le_refl 16), extractLsb'_carrier _ (by omega : 8 ≤ 16),
    extractLsb'_carrier _ (Nat.zero_le 16)]
  simp [withMirror, tunedMirror, mirrorInMode, modeByte, frequencyWord, setMode, State.setMir, Config.withMode,
    Config.freqWord]

/-- A tuned mirror says standby (44_transceiver.md R217). -/
theorem tunedMirror_getD_zero {s : State} (hz : Word) (h : 1 ≤ s.drv.mir.length) :
    (tunedMirror s hz).getD 0 0 = s.cfg.withMode (s.mirAt 0) s.cfg.modeStandby := by
  have hmode : (mirrorInMode s s.cfg.modeStandby).getD 0 0 = s.cfg.withMode (s.mirAt 0) s.cfg.modeStandby :=
    modeMirror_getD _ h
  simpa [tunedMirror, List.getD_eq_getElem?_getD] using hmode

/-- So a tuned mirror is pushed with the mode byte first (44_transceiver.md R212). -/
theorem presentOrder_tuned {s : State} (hz : Word) (hcfg : s.cfg.wf) (hm : Memory.wf s) :
    presentOrder (withMirror (tunedMirror s hz) s) = modeFirst s.cfg := by
  have hslots := slots_pos hcfg
  obtain ⟨-, -, hmir⟩ := hm
  obtain ⟨-, -, -, hmode⟩ := hcfg
  calc presentOrder (withMirror (tunedMirror s hz) s)
      = s.cfg.pushOrder ((tunedMirror s hz).getD 0 0) := (pushOrder_eq _ _).symm
    _ = modeFirst s.cfg := by
        rw [tunedMirror_getD_zero hz (by omega)]
        exact pushOrder_standby hmode _

/-! ### Commands that go through -/

/-- A command out of fault whose pieces all end well answers `OK` with the number its result word stands for. -/
theorem next_judge_answer {α : Type} {s t : State} {r : Res α} {a : α} {v : α → State → Word} {n : Nat}
    (hf : s.flt.fault = false) (hr : r = .ok a t) (ht : t.rstIn = none) (hv : v a t = BitVec.ofNat 32 n) :
    (.next (judge s true (r.andThen fun a s => .ok (v a s) s).finish) : Host.Outcome State Fault Refusal) =
      .next (ended .ok n t) := by
  rw [hr, ok_andThen, finish_ok ht]
  exact next_judge_ended hf hv

/-- A push of the mirror as it stands (44_transceiver.md R212, R214). -/
theorem push_presentOrder {s : State} (hslots : 1 ≤ s.cfg.slots) (hr : s.rstIn = none)
    (hs : s.env.succeeds s.cfg.slots) :
    push s =
      .ok () { s with
        env := s.env.afterAnswers s.cfg.slots
        trace := s.trace ++ slotWrites s.cfg s.drv.mir (presentOrder s) } := by
  rw [push_ok hslots hr hs, pushOrder_eq]
  rfl

/-- Settles O39: the command is one push of the mirror. -/
theorem syncRegsPushesTheMirror : Obligations.SyncRegsPushesTheMirror := by
  unfold Obligations.SyncRegsPushesTheMirror
  rintro s hcfg ⟨hf, hr⟩ hs
  exact next_judge_answer (v := fun _ _ => 0) hf (push_presentOrder (slots_pos hcfg) hr hs) hr rfl

/-- A tuning that goes through (44_transceiver.md R217). -/
theorem setFrequency_ok {s : State} (hz : Word) (hcfg : s.cfg.wf) (hm : Memory.wf s) (hr : s.rstIn = none)
    (hs : s.env.succeeds s.cfg.slots) : setFrequency hz s = .ok () (afterTune hz s) := by
  rw [setFrequency, tuneMirror_eq, push_presentOrder (s := withMirror (tunedMirror s hz) s) (slots_pos hcfg) hr hs,
    presentOrder_tuned hz hcfg hm]
  rfl

/-- `SET_FREQ.*` with its frequency in range (44_transceiver.md R215, R216). -/
theorem judge_setFreq {s : State} {hz : Word} (h : s.RegInv) (hclear : s.clear) (hs : s.env.succeeds s.cfg.slots)
    (hrange : frequencyWord s.cfg hz < 2 ^ 24) :
    (.next (judge s (s.cfg.freqInRange hz) (setFreqCommand hz s).finish) : Host.Outcome State Fault Refusal) =
      .next (ended .ok (frequencyWord s.cfg hz) (afterTune hz s)) := by
  obtain ⟨hcfg, hm, -⟩ := h
  obtain ⟨hf, hr⟩ := hclear
  rw [(freqInRange_iff s.cfg hz).mpr hrange]
  exact next_judge_answer (v := fun _ s => BitVec.ofNat 32 (s.cfg.freqWord hz)) hf (setFrequency_ok hz hcfg hm hr hs) hr
    rfl

/-- Settles O41: either command is a tuning, to its operand or to `hop_freq`. -/
theorem setFreqProgramsTheCarrier : Obligations.SetFreqProgramsTheCarrier := by
  unfold Obligations.SetFreqProgramsTheCarrier
  exact fun s w h hclear hs => ⟨judge_setFreq h hclear hs, judge_setFreq h hclear hs⟩

/-! ### Device reset -/

/-- A device reset pulses the line, which was low and is low again, and then pushes (44_transceiver.md R228). -/
theorem deviceReset_eq_push {s : State} (hline : s.drv.devRst = false) (hr : s.rstIn = none) :
    deviceReset s = push ((afterPulse s).enter .run) := by
  have hlow : { s.drv with devRst := false } = s.drv := by rw [← hline]
  simp [deviceReset, driveReset, delay, unlessReset, State.passEvent, State.enter, afterPulse, hr, hlow]

/-- A device reset that goes through (44_transceiver.md R228). -/
theorem deviceReset_ok {s : State} (hslots : 1 ≤ s.cfg.slots) (hline : s.drv.devRst = false) (hr : s.rstIn = none)
    (hs : s.env.succeeds s.cfg.slots) :
    deviceReset s =
      .ok () { afterPulse s with
        phase := .run
        env := (s.env.afterAnswers s.cfg.slots).pass (s.cfg.rstHigh.toNat + s.cfg.rstSettle.toNat)
        trace := (afterPulse s).trace ++ slotWrites s.cfg s.drv.mir (presentOrder s) } := by
  rw [deviceReset_eq_push hline hr, push_presentOrder (s := (afterPulse s).enter .run) hslots hr (pass_succeeds.mpr hs),
    ← pass_afterAnswers]
  rfl

/-- Settles O45: after the pulse the command is one push of the mirror. -/
theorem devResetPulsesTheLineAndPushes : Obligations.DevResetPulsesTheLineAndPushes := by
  unfold Obligations.DevResetPulsesTheLineAndPushes
  rintro s ⟨hcfg, -⟩ hline ⟨hf, hr⟩ hs
  -- the push leaves phase RUN, which `ended` overwrites
  have hended := next_judge_answer (v := fun _ _ => 0) (n := 0) hf (deviceReset_ok (slots_pos hcfg) hline hr hs) hr rfl
  exact hended

/-! ### Receive -/

/-- The wait of the model ends as the rule says (44_transceiver.md R222). -/
theorem waitEnds_waitEnd (e : Env) (timeout : Nat) :
    waitEnds e e.time timeout (waitEnd e timeout).ticks (waitEnd e timeout).fired := by
  cases hfired : (waitEnd e timeout).fired with
  | false => exact .inr ⟨rfl, waitEnd_timeout hfired⟩
  | true =>
    obtain ⟨hpos, hle, hhigh, hlow, hfirst⟩ := waitEnd_fired hfired
    exact .inl ⟨rfl, hpos, hle, ⟨hhigh, hlow⟩, hfirst⟩

/-- The device's answers leave the line as it is. -/
theorem waitEnds_afterAnswers {e : Env} {n t0 timeout ticks : Nat} {fired : Bool}
    (h : waitEnds (e.afterAnswers n) t0 timeout ticks fired) : waitEnds e t0 timeout ticks fired := by
  simpa only [waitEnds, risesAt, afterAnswers_irqLevel] using h

/-- The answer of `RECEIVE.*` packs the RSSI above the timed-out flag (44_transceiver.md R221). -/
theorem receiveResult_eq (s : State) :
    receiveResult s = BitVec.ofNat 32 (s.drv.rssiRaw.toNat * 256 + bit s.drv.rxTimedOut) := by
  have hflag := bit_lt s.drv.rxTimedOut
  rw [show 256 = 2 ^ 8 from rfl, ofNat_field _ 8 (by omega), receiveResult, flagAt_eq, BitVec.ofNat_toNat,
    BitVec.shiftLeft_zero]

theorem sampleSteps_pos (trigger : Bool) : 1 ≤ sampleSteps trigger := by cases trigger <;> decide

/-- A whole receive, its wait as the model runs it (44_transceiver.md R220). -/
theorem receive_afterReceive {s : State} (timeout : Nat) (k : Bool → Resume) (h : receiveGoesThrough s 0) :
    let w := waitEnd (s.env.afterAnswers s.cfg.slots) timeout
    receive timeout k s = .ok () (afterReceive s w.ticks w.fired w.irqPrev) := by
  obtain ⟨⟨hcfg, hm, -⟩, ⟨-, hr⟩, hs, hready⟩ := h
  have hsteps := sampleSteps_pos s.cfg.rxRssiTrigger
  rw [receive_ok timeout k hcfg hm hr hs hready, ← Nat.add_sub_assoc hsteps]
  rfl

/-- `RECEIVE.*` with its timeout in ticks (44_transceiver.md R221, R223). -/
theorem judge_receive {s : State} (timeout : Nat) (h : receiveGoesThrough s 0) :
    ∃ ticks fired prev, waitEnds s.env (s.env.afterAnswers s.cfg.slots).time timeout ticks fired ∧
      (.next (judge s true (receiveCommand timeout s).finish) : Host.Outcome State Fault Refusal) =
        .next (ended .ok ((afterReceive s ticks fired prev).drv.rssiRaw.toNat * 256 + bit (!fired))
          (afterReceive s ticks fired prev)) := by
  refine ⟨_, _, (waitEnd (s.env.afterAnswers s.cfg.slots) timeout).irqPrev,
    waitEnds_afterAnswers (waitEnds_waitEnd _ timeout), ?_⟩
  have hreceive := receive_afterReceive timeout .receive h
  obtain ⟨-, ⟨hf, hr⟩, -⟩ := h
  exact next_judge_answer (v := fun _ => receiveResult) hf hreceive hr (receiveResult_eq _)

/-- Settles O43: the two commands differ in their timeout. -/
theorem receiveMakesOneAttempt : Obligations.ReceiveMakesOneAttempt := by
  unfold Obligations.ReceiveMakesOneAttempt
  exact fun s w h => ⟨judge_receive w.toNat h, judge_receive s.cfg.dwell.toNat h⟩

/-! ### A push however it ends -/

/-- The events of a run of slot writes, however it ended: each event is the write of the next slot of the list, the ones
before it having succeeded (44_transceiver.md R212). -/
def WritesInOrder (c : Config) (mir : List Byte) (ks : List Nat) (evs : List Event) : Prop :=
  ∀ before e after, evs = before ++ e :: after →
    ∃ done k rest, ks = done ++ k :: rest ∧ before = slotWrites c mir done ∧
      writesByte e (c.addrAt k) (mir.getD k 0)

section
variable {c : Config} {mir : List Byte} {k : Nat} {ks : List Nat} {evs : List Event} {e : Event}

theorem writesInOrder_nil : WritesInOrder c mir ks [] := by
  intro before e after h
  simp at h

/-- The last write made: it was answered either way, or cut in flight. -/
theorem writesInOrder_singleton (he : writesByte e (c.addrAt k) (mir.getD k 0)) :
    WritesInOrder c mir (k :: ks) [e] := by
  intro before e' after h
  cases before with
  | nil =>
    obtain ⟨rfl, -⟩ := List.cons.inj h
    exact ⟨[], k, ks, rfl, rfl, he⟩
  | cons e'' before => simp at h

/-- A write that succeeded, and those after it. -/
theorem WritesInOrder.cons (h : WritesInOrder c mir ks evs) :
    WritesInOrder c mir (k :: ks) (.write (c.addrAt k) (mir.getD k 0) true :: evs) := by
  intro before e after hevs
  cases before with
  | nil =>
    obtain ⟨rfl, -⟩ := List.cons.inj hevs
    exact ⟨[], k, ks, rfl, rfl, .inl ⟨true, rfl⟩⟩
  | cons e' before =>
    obtain ⟨rfl, htail⟩ := List.cons.inj hevs
    obtain ⟨done, j, rest, rfl, rfl, he⟩ := h before e after htail
    exact ⟨k :: done, j, rest, rfl, rfl, he⟩

end

/-- What a run of slot writes from `s` leaves in the trace. -/
def Wrote (s : State) (ks : List Nat) (t : State) : Prop :=
  ∃ evs, t.trace = s.trace ++ evs ∧ WritesInOrder s.cfg s.drv.mir ks evs

theorem Wrote.refl (s : State) (ks : List Nat) : Wrote s ks s := ⟨[], by simp, writesInOrder_nil⟩

/-- A run that ended with the write of its first slot. -/
theorem Wrote.of_write {s t : State} {k : Nat} {ks : List Nat} {e : Event}
    (he : writesByte e (s.cfg.addrAt k) (s.mirAt k)) (ht : t.trace = s.trace ++ [e]) : Wrote s (k :: ks) t :=
  ⟨[e], ht, writesInOrder_singleton he⟩

/-- A run whose first slot was written with success. -/
theorem Wrote.cons {s t : State} {k : Nat} {ks : List Nat} (hok : s.env.nextAnswer.ok = true)
    (h : Wrote (s.afterWrite (s.cfg.addrAt k) (s.mirAt k)) ks t) : Wrote s (k :: ks) t := by
  obtain ⟨evs, ht, hevs⟩ := h
  exact ⟨_, by rw [ht, afterWrite_trace, hok, List.append_assoc]; rfl, WritesInOrder.cons hevs⟩

theorem writesByte_write (a b : Byte) (ok : Bool) : writesByte (.write a b ok) a b := .inl ⟨ok, rfl⟩

/-- A run of slot writes stays in its order wherever it stops. -/
theorem writeSlots_wrote (ks : List Nat) (s : State) : (writeSlots ks s).Sat (fun _ => Wrote s ks) (Wrote s ks) := by
  induction ks generalizing s with
  | nil => exact Wrote.refl s []
  | cons k ks ih =>
    have hwrite := busWrite_sat (a := s.cfg.addrAt k) (v := s.mirAt k) (E := Wrote s (k :: ks))
      (Q := fun _ t => s.env.nextAnswer.ok = true ∧ s.afterWrite (s.cfg.addrAt k) (s.mirAt k) = t)
      (fun _ => .refl s _) (fun _ => .of_write (.inr rfl) rfl)
      (fun hok => ⟨hok, rfl⟩)
      (fun _ => .of_write (writesByte_write _ _ _) rfl) (fun _ => .of_write (writesByte_write _ _ _) rfl)
    refine hwrite.andThen ?_
    rintro _ _ ⟨hok, rfl⟩
    exact (ih _).mono (fun _ _ => .cons hok) fun _ => .cons hok

theorem writesByte_inj {e : Event} {a b a' b' : Byte} (h : writesByte e a b) (h' : writesByte e a' b') :
    a = a' ∧ b = b' := by
  obtain ⟨_, rfl⟩ | rfl := h <;> obtain ⟨_, h'⟩ | h' := h' <;> cases h' <;> exact ⟨rfl, rfl⟩

/-- The slots have different addresses (00_scope.md R6). -/
theorem addrAt_inj {c : Config} (h : c.wf) {j k : Nat} (hj : j < c.slots) (hk : k < c.slots)
    (hjk : c.addrAt j = c.addrAt k) : j = k := by
  obtain ⟨-, -, ⟨-, -, hlen, -, hnodup, -⟩, -⟩ := h
  rw [← hlen] at hj hk
  rw [Config.addrAt, Config.addrAt, List.getD_eq_getElem _ _ hj, List.getD_eq_getElem _ _ hk] at hjk
  exact (hnodup.getElem_inj_iff).mp hjk

theorem write_mem_slotWrites (c : Config) (mir : List Byte) {k : Nat} {ks : List Nat} (h : k ∈ ks) :
    .write (c.addrAt k) (mir.getD k 0) true ∈ slotWrites c mir ks := List.mem_map_of_mem h

/-- What stands before the mode slot in the order of a push (44_transceiver.md R212). -/
theorem before_modeSlot {c : Config} (h : 1 ≤ c.slots) {b : Byte} {done rest : List Nat}
    (hks : c.pushOrder b = done ++ 0 :: rest) :
    done = if b &&& c.modeMask = c.modeRx then List.range' 1 (c.slots - 1) else [] := by
  have hnotin : 0 ∉ List.range' 1 (c.slots - 1) := by simp
  rw [pushOrder_eq] at hks
  split at hks
  · obtain ⟨hdone, -, -⟩ := (List.append_cons_inj_of_notMem hnotin List.not_mem_nil).mp hks
    rw [if_pos ‹_›, hdone]
  · rw [modeFirst_eq_cons h] at hks
    obtain ⟨hdone, -, -⟩ := (List.append_cons_inj_of_notMem (x₁ := []) List.not_mem_nil hnotin).mp hks
    rw [if_neg ‹_›, hdone]

/-- Where a push writes a mode byte, what stands before the mode slot in the order of that byte has been written
(44_transceiver.md R213). -/
theorem WritesInOrder.before_modeByte {s : State} {evs before after : List Event} {e : Event} {b : Byte}
    (hcfg : s.cfg.wf) (h : WritesInOrder s.cfg s.drv.mir (s.cfg.pushOrder (s.mirAt 0)) evs)
    (he : writesByte e (s.cfg.addrAt 0) b)
    (hevs : evs = before ++ e :: after) :
    before = slotWrites s.cfg s.drv.mir
      (if b &&& s.cfg.modeMask = s.cfg.modeRx then List.range' 1 (s.cfg.slots - 1) else []) := by
  have hslots := slots_pos hcfg
  obtain ⟨done, k, rest, hks, rfl, hk⟩ := h before e after hevs
  obtain ⟨haddr, rfl⟩ := writesByte_inj he hk
  have hlt : k < s.cfg.slots := lt_slots_of_mem_pushOrder hslots (hks ▸ List.mem_append_right done List.mem_cons_self)
  obtain rfl := addrAt_inj hcfg (by omega) hlt haddr
  rw [before_modeSlot hslots hks]
  rfl

/-- Settles O40: the events of the command are those of its push, in the order of the mirror's mode byte. -/
theorem pushNeverEntersRxWithStaleSettings : Obligations.PushNeverEntersRxWithStaleSettings := by
  unfold Obligations.PushNeverEntersRxWithStaleSettings
  rintro s t ⟨hcfg, -⟩ hf hexec
  have hwrote : Wrote s (s.cfg.pushOrder (s.mirAt 0)) ((push s).andThen fun _ s => .ok 0 s).finish :=
    Res.Sat.finish (Q := fun _ => Wrote s (s.cfg.pushOrder (s.mirAt 0)))
      ((writeSlots_wrote _ s).andThen fun _ _ hwrote => hwrote)
      (fun _ _ hwrote _ => hwrote) fun _ _ hwrote _ => hwrote
  have ht : judge s true ((push s).andThen fun _ s => .ok 0 s).finish = t := Host.Outcome.next.inj hexec
  rw [judge_of_clear hf] at ht
  rw [ht] at hwrote
  obtain ⟨evs, htrace, horder⟩ := hwrote
  refine ⟨evs, htrace, fun before after e b he hevs => ?_⟩
  rw [horder.before_modeByte hcfg he hevs]
  split
  · exact fun k hpos hlt => write_mem_slotWrites _ _ (List.mem_range'_1.mpr (by omega))
  · rfl

end Sys2Proof.Machine

/-! The RSSI sampler (45_rssi.md). A sample whose first poll is ready is known in one piece (`sampleRssi_ok`), one whose
first poll is not leaves the command in its poll (`sampleRssi_waiting`). From there every step is one turn: without a
ready bit it is one more read (`step_unready`), and the first ready bit takes the command on to the rest of its rule
(`step_ready`): the tail of a `receive` (`receiveTail_afterPolledReceive`), the decision of `LOOP.STEP`
(`loopDecide_ok`). -/

namespace Sys2Proof.Machine

open Sys2Proof.Spec

/-! ### The sample of `READ_RSSI` -/

/-- `READ_RSSI` ends by storing the raw value and answering with it (45_rssi.md R246). -/
theorem finish_storeRssi {s : State} (hr : s.rstIn = none) (v : Byte) :
    (storeRssi v s).finish = ended .ok v.toNat (s.setRssi v) := by
  rw [storeRssi, finish_ok (s := s.setRssi v) hr, ← BitVec.ofNat_toNat]
  rfl

theorem exec_readRssi (trigger : Bool) (s : State) :
    exec (.readRssi trigger) s = .next (judge s true ((sampleRssi trigger .readRssi s).andThen storeRssi).finish) := rfl

/-- A `READ_RSSI` whose sample goes through, and leaves `t` (45_rssi.md R246). -/
theorem exec_readRssi_ok {s t : State} {trigger : Bool} {v : Byte} (hf : s.flt.fault = false)
    (hsample : sampleRssi trigger .readRssi s = .ok v t) (ht : t.rstIn = none) :
    exec (.readRssi trigger) s = .next (ended .ok v.toNat (t.setRssi v)) := by
  rw [exec_readRssi, judge_of_clear hf, hsample, ok_andThen, finish_storeRssi ht]

/-- Settles O46: the sample is that of `sampleRssi_ok`, of one transaction or of three. -/
theorem readRssiStoresTheRawByte : Obligations.ReadRssiStoresTheRawByte := by
  unfold Obligations.ReadRssiStoresTheRawByte
  rintro s ⟨hf, hr⟩
  constructor
  · intro hs
    exact exec_readRssi_ok hf (sampleRssi_ok false .readRssi hr hs (by simp)) hr
  · intro hs hready
    exact exec_readRssi_ok hf (sampleRssi_ok true .readRssi hr hs fun _ => hready) hr

/-! ### A first poll without a ready bit -/

/-- A sample whose first poll is not ready stops there, in the terms of the statements (45_rssi.md R247, R249). -/
theorem sampleRssi_unready (k : Resume) {s : State} (hr : s.rstIn = none) (hs : s.env.succeeds 2)
    (hunready : s.env.answerAt 1 &&& s.cfg.rssiDone = 0) :
    sampleRssi true k s = .stop { afterPoll (afterTrigger s) with phase := .pollRssi k } := by
  have htrace : (afterPoll (afterTrigger s)).trace = s.trace ++ [.write s.cfg.addrRssiCfg s.cfg.rssiStart true,
      .read s.cfg.addrRssiCfg (some (s.env.answerAt 1))] := List.append_assoc _ _ _
  rw [sampleRssi_waiting k hr hs hunready, ← htrace]
  rfl

/-- The push into RX and the wait of a `receive`, in the terms of the statements (44_transceiver.md R220). -/
theorem receiveWait_afterWait {s : State} (timeout : Nat) (h : s.RegInv) (hr : s.rstIn = none)
    (hs : s.env.succeeds s.cfg.slots) :
    let w := waitEnd (s.env.afterAnswers s.cfg.slots) timeout
    receiveWait timeout s = .ok w.fired ((afterWait s w.ticks w.fired w.irqPrev).enter .run) := by
  obtain ⟨hcfg, hm, -⟩ := h
  exact receiveWait_ok timeout hcfg hm hr hs

/-- A `receive` whose first poll is not ready stops there, after its push into RX and its wait (44_transceiver.md R220,
45_rssi.md R250). -/
theorem receive_unready {s : State} (timeout : Nat) (k : Bool → Resume) (h : s.RegInv) (hr : s.rstIn = none)
    (htrigger : s.cfg.rxRssiTrigger = true) (hs : s.env.succeeds (s.cfg.slots + 2))
    (hunready : s.env.answerAt (s.cfg.slots + 1) &&& s.cfg.rssiDone = 0) :
    let w := waitEnd (s.env.afterAnswers s.cfg.slots) timeout
    receive timeout k s = .stop
      { afterPoll (afterTrigger (afterWait s w.ticks w.fired w.irqPrev)) with phase := .pollRssi (k w.fired) } := by
  intro w
  obtain ⟨hpush, hpoll⟩ := succeeds_add.mp hs
  have hanswer : (afterWait s w.ticks w.fired w.irqPrev).env.answerAt 1 = s.env.answerAt (s.cfg.slots + 1) := by
    simp [afterWait, answerAt_afterAnswers]
  have hsample := sampleRssi_unready (s := (afterWait s w.ticks w.fired w.irqPrev).enter .run) (k w.fired) hr
    (pass_succeeds.mpr hpoll) (hanswer ▸ hunready)
  rw [receive, receiveWait_afterWait timeout h hr hpush, ok_andThen, enter_cfg,
    show (afterWait s w.ticks w.fired w.irqPrev).cfg.rxRssiTrigger = true from htrigger, hsample]
  rfl

/-- A command that receives is a `receive`, its bound and its poll being its own, and a rest (44_transceiver.md R221,
R223, 46_receive_loop.md R257). -/
theorem exec_of_receiveTimeout {i : Instr} {s : State} {timeout : Nat} (hi : receiveTimeout s i = some timeout)
    (harg : argumentInRange s i) :
    ∃ (k : Bool → Resume) (rest : Unit → State → Res Word), (∀ fired, pollOf fired i = some (k fired)) ∧
      exec i s = .next (judge s true ((receive timeout k s).andThen rest).finish) := by
  cases i <;> cases hi
  case receiveI => exact ⟨.receive, fun _ => receiveDone, fun _ => rfl, rfl⟩
  case receiveD => exact ⟨.receive, fun _ => receiveDone, fun _ => rfl, rfl⟩
  case loopStep =>
    have hrange : nextFreqInRange s = true := (freqInRange_iff s.cfg s.nextFreq).mpr harg
    have hexec : exec .loopStep s = .next (judge s (nextFreqInRange s) (loopTurn s).finish) := rfl
    exact ⟨.loopStep, fun _ => loopDecide, fun _ => rfl, by rw [hexec, hrange]; rfl⟩

/-- Settles O60: the sample stops in the poll, and what stops a piece of a command stops the command. -/
theorem unreadyFirstPollLeavesTheCommandInItsPoll : Obligations.UnreadyFirstPollLeavesTheCommandInItsPoll := by
  unfold Obligations.UnreadyFirstPollLeavesTheCommandInItsPoll
  constructor
  · rintro s ⟨hf, hr⟩ hs hunready
    rw [exec_readRssi, judge_of_clear hf, sampleRssi_unready .readRssi hr hs hunready, stop_andThen, finish_stop]
  · rintro i s timeout hi hinv ⟨hf, hr⟩ harg htrigger hs hunready
    obtain ⟨k, rest, hk, hexec⟩ := exec_of_receiveTimeout hi harg
    refine ⟨_, _, (waitEnd (s.env.afterAnswers s.cfg.slots) timeout).irqPrev, _,
      waitEnds_afterAnswers (waitEnds_waitEnd _ timeout), hk _, ?_⟩
    rw [hexec, judge_of_clear hf, receive_unready timeout k hinv hr htrigger hs hunready, stop_andThen, finish_stop]

/-! ### The turns of a poll without a ready bit -/

/-- A later turn of a poll that sees no ready bit is one read (45_rssi.md R247). -/
theorem step_unready {s : State} {k : Resume} (hp : s.phase = .pollRssi k) (hr : s.rstIn = none)
    (hresp : s.resp = none) (hs : s.env.nextAnswer.ok = true)
    (hunready : s.env.nextAnswer.data &&& s.cfg.rssiDone = 0) : step s = .next (afterPoll s) := by
  have hpresented : s.unpresent = s := by rw [State.unpresent, ← hresp]
  have hpoll : pollOnce k s = .stop (afterPoll s) := by
    rw [pollOnce_waiting k hr hs hunready, ← hp]
    rfl
  rw [step_of_poll (by simp [hr]) hp, hpresented, resume, hpoll, stop_andThen, finish_stop]

theorem run_succ_of_step {s t : State} (h : step s = .next t) (n : Nat) :
    Sys2Proof.core.run (n + 1) s = Sys2Proof.core.run n t := by
  have hcore : Sys2Proof.core.step s = .next t := h
  simp [Host.Core.run, hcore]

/-- Settles O47, by induction on the number of unready answers: each is one turn, which leaves the poll as it was. -/
theorem rssiPollGoesOnUntilTheReadyBit : Obligations.RssiPollGoesOnUntilTheReadyBit := by
  unfold Obligations.RssiPollGoesOnUntilTheReadyBit
  intro s k n hp hr hresp hs hunready
  induction n generalizing s with
  | zero => simp [Host.Core.run, Env.answers, Env.afterAnswers]
  | succ n ih =>
    obtain ⟨hok, hrest⟩ := succeeds_succ.mp hs
    obtain ⟨hfirst, hlater⟩ := List.forall_mem_cons.mp hunready
    rw [run_succ_of_step (step_unready hp hr hresp hok hfirst)]
    refine (ih (afterPoll s) hp hr hresp hrest hlater).trans ?_
    simp [afterPoll, Env.answers, Env.afterAnswers, Env.answerAt]

/-! ### The ready bit -/

/-- Every command stores the value first, so having stored it already makes no difference (45_rssi.md R246,
44_transceiver.md R220 step 3). -/
theorem afterRssi_setRssi (k : Resume) (v : Byte) (s : State) : afterRssi k v (s.setRssi v) = afterRssi k v s := by
  cases k <;> rfl

/-- A turn that sees a ready bit reads the value and goes on with the command (45_rssi.md R247, R249). -/
theorem resume_ready (k : Resume) {s : State} (hr : s.rstIn = none) (hs : s.env.succeeds 2)
    (hready : s.env.answerAt 0 &&& s.cfg.rssiDone ≠ 0) :
    resume k s = (afterRssi k (s.env.answerAt 1) ((afterReady s).enter .run)).finish := by
  obtain ⟨hpoll, hvalue⟩ := succeeds_succ.mp (show s.env.succeeds (1 + 1) from hs)
  have hpolled : pollOnce k s = .ok () ((afterPoll s).enter .run) := pollOnce_ready k hr hpoll hready
  rw [resume, hpolled, ok_andThen, readRssiValue_ok (s := (afterPoll s).enter .run) hr (succeeds_one.mp hvalue),
    ok_andThen, ← afterRssi_setRssi]
  simp only [State.enter, afterPoll, List.append_assoc]
  rfl

/-- The step that sees a ready bit (45_rssi.md R247). -/
theorem step_ready {s : State} {k : Resume} (hp : s.phase = .pollRssi k) (hr : s.rstIn = none) (hs : s.env.succeeds 2)
    (hready : s.env.answerAt 0 &&& s.cfg.rssiDone ≠ 0) :
    step s = .next (afterRssi k (s.env.answerAt 1) ((afterReady s.unpresent).enter .run)).finish := by
  rw [step_of_poll (by simp [hr]) hp, resume_ready (s := s.unpresent) k hr hs hready]
  rfl

/-- The rest of a `receive` after the value of its sample (44_transceiver.md R220). -/
theorem receiveTail_afterPolledReceive {s : State} (fired : Bool) (h : s.RegInv) (hr : s.rstIn = none)
    (hs : s.env.succeeds (2 + s.cfg.slots + if fired then s.cfg.frameLen else 0)) :
    receiveTail fired (s.env.answerAt 1) ((afterReady s.unpresent).enter .run) =
      .ok () (afterPolledReceive s fired) := by
  obtain ⟨hcfg, hm, -⟩ := h
  rw [Nat.add_assoc] at hs
  rw [receiveTail_ok (s := (afterReady s.unpresent).enter .run) fired _ hcfg hm hr (succeeds_add.mp hs).2]
  simp only [afterPolledReceive, Env.answersFrom, afterAnswers_add]
  rfl

/-- The rest of a `receive` keeps the invariant: its mirror is that of `set_mode`, its payload a whole frame
(10_state.md R55). -/
theorem regInv_afterPolledReceive {s : State} (fired : Bool) (h : s.RegInv) : (afterPolledReceive s fired).RegInv := by
  obtain ⟨hcfg, ⟨hraw, hdec, hmir⟩, hrest⟩ := regInv_setMode h s.cfg.modeStandby
  refine ⟨hcfg, ⟨?_, hdec, hmir⟩, hrest⟩
  cases fired with
  | false => exact hraw
  | true => exact answersFrom_length _ _ _

/-- The hop of the model is that of the statements (43_channel_plan.md R193). -/
theorem nextHop_eq_afterHop (s : State) : nextHop s = afterHop s := rfl

/-- A hop and its tuning that go through (46_receive_loop.md R256, R257). -/
theorem hopAndTune_ok {s : State} (h : s.RegInv) (hr : s.rstIn = none) (hs : s.env.succeeds s.cfg.slots) :
    hopAndTune s = .ok () (afterTune (afterHop s).sync.hopFreq (afterHop s)) := by
  obtain ⟨hcfg, hm, -⟩ := h
  rw [hopAndTune, nextHop_eq_afterHop]
  exact setFrequency_ok (s := afterHop s) _ hcfg hm hr (afterLag_succeeds.mpr hs)

/-- `LOOP.STEP` after its receive: the decision, and the hop when the decision says so (46_receive_loop.md R257). -/
theorem loopDecide_ok {s : State} (h : s.RegInv) (hr : s.rstIn = none) (hs : s.env.succeeds s.cfg.slots) :
    let decided := afterHandle s.drv.rxTimedOut s
    loopDecide s = .ok (BitVec.ofNat 32 (hpResultNat decided))
      (if decided.sync.shouldHop then afterTune (afterHop decided).sync.hopFreq (afterHop decided) else decided) := by
  intro decided
  have heq : handle s.drv.rxTimedOut s = decided := handle_eq_afterHandle h _
  have hdecided : decided.RegInv := heq ▸ regInv_handle h _
  simp only [loopDecide, heq]
  split
  · rw [hopAndTune_ok hdecided hr (afterLag_succeeds.mpr hs), ok_andThen]
    -- the hop and the tuning write nothing that `hp_result` packs
    exact congrArg (Res.ok · _) (hpResult_eq decided)
  · rw [hpResult_eq]

/-- Settles O48: `step_ready`, and then the rest of each command. -/
theorem readyBitEndsThePollAndTheCommandGoesOn : Obligations.ReadyBitEndsThePollAndTheCommandGoesOn := by
  unfold Obligations.ReadyBitEndsThePollAndTheCommandGoesOn
  intro s fired hinv hr hready hs
  have hreg : s.RegInv := regInv_of_inv hinv
  have hsample : s.env.succeeds 2 := succeeds_of_le hs (by omega)
  have hreceive : s.env.succeeds (2 + s.cfg.slots + if fired then s.cfg.frameLen else 0) :=
    succeeds_of_le hs (by split <;> omega)
  have hdecision : (afterPolledReceive s fired).env.succeeds s.cfg.slots :=
    (succeeds_add.mp (succeeds_of_le hs (by split <;> omega))).2
  have htail := receiveTail_afterPolledReceive fired hreg hr hreceive
  refine ⟨fun hp => ?readRssi, fun hp => ?receive, fun hp _ => ?loopStep⟩
  case readRssi =>
    rw [step_ready hp hr hsample hready, afterRssi, finish_storeRssi (s := (afterReady s.unpresent).enter .run) hr]
    rfl
  case receive =>
    rw [step_ready hp hr hsample hready, afterRssi, htail, ok_andThen, receiveDone,
      finish_ok (s := afterPolledReceive s fired) hr, receiveResult_eq]
    rfl
  case loopStep =>
    have hdecide := loopDecide_ok (regInv_afterPolledReceive fired hreg) hr hdecision
    rw [step_ready hp hr hsample hready, afterRssi, htail, ok_andThen, hdecide, finish_ok (by split <;> exact hr)]
    rfl

end Sys2Proof.Machine

/-! The receive loop (46_receive_loop.md). The parts of its two commands are known in one piece: the hop with its tuning
(`hopAndTune_ok`), the receive of a dwell (`receive_received`), the decision (`loopDecide_ok`). So are the elementary
commands on the same states, and an answer that stands in the response channel changes nothing for the next command
(R255). -/

namespace Sys2Proof.Machine

open Sys2Proof.Spec

/-! ### The hop and its tuning -/

/-- `s` after the next hop and the programming of its carrier (46_receive_loop.md R256, R257); `hopAndTune_ok`. -/
def State.hoppedAndTuned (s : State) : State := afterTune (afterHop s).sync.hopFreq (afterHop s)

theorem runAll_cons {i : Instr} {is : List Instr} {s t : State} (h : exec i s = .next t) :
    runAll (i :: is) s = runAll is t := by
  simp only [runAll, h]

section
variable {s : State} (h : s.RegInv) (hclear : s.clear) (hs : s.env.succeeds s.cfg.slots)
  (hrange : frequencyWord s.cfg (afterHop s).sync.hopFreq < 2 ^ 24)
include h hclear hs hrange

theorem exec_loopInit_ok :
    exec .loopInit s = .next (ended .ok (afterHop s).sync.hopFreq.toNat s.hoppedAndTuned) := by
  obtain ⟨hf, hr⟩ := hclear
  have hexec : exec .loopInit s =
      .next (judge s (nextFreqInRange s) ((hopAndTune s).andThen fun _ s => .ok s.sync.hopFreq s).finish) := rfl
  have harg : nextFreqInRange s = true := (freqInRange_iff s.cfg s.nextFreq).mpr hrange
  rw [hexec, harg]
  exact next_judge_answer (v := fun _ s => s.sync.hopFreq) hf (hopAndTune_ok h hr hs) hr
    (by rw [BitVec.ofNat_toNat, BitVec.setWidth_eq]; rfl)

/-- The elementary commands of a hop and its tuning (43_channel_plan.md R193, 44_transceiver.md R216). -/
theorem runAll_nextHop_setFreqH :
    runAll [.nextHop, .setFreqH] s =
      .next (ended .ok (frequencyWord s.cfg (afterHop s).sync.hopFreq) s.hoppedAndTuned) := by
  obtain ⟨hf, hr⟩ := hclear
  have htune : exec .setFreqH (hopEnded s) = _ :=
    judge_setFreq (s := hopEnded s) (regInv_nextHop h) ⟨hf, hr⟩ (afterLag_succeeds.mpr hs) hrange
  rw [runAll_cons (exec_nextHop hf), runAll_cons htune]
  rfl

end

/-- Settles O49: the command is one hop and its tuning, and answers with the carrier the hop took. -/
theorem loopInitHopsAndTunes : Obligations.LoopInitHopsAndTunes := by
  unfold Obligations.LoopInitHopsAndTunes
  exact fun _ => exec_loopInit_ok

/-! ### One turn of the loop -/

/-- How the wait of a dwell ends that begins after the push into RX (44_transceiver.md R222, R223). -/
def State.dwellWait (s : State) : WaitEnd := waitEnd (s.env.afterAnswers s.cfg.slots) s.cfg.dwell.toNat

/-- `s` after a `receive` of a dwell that goes through (44_transceiver.md R220); `receive_received`. -/
def State.received (s : State) : State := afterReceive s s.dwellWait.ticks s.dwellWait.fired s.dwellWait.irqPrev

/-- `s` after that `receive` and the handler on its flag (46_receive_loop.md R257); `exec_loopStep_ok`. -/
def State.decided (s : State) : State := afterHandle (!s.dwellWait.fired) s.received

/-- `s` after a hop and its tuning if `should_hop` says so (46_receive_loop.md R257). -/
def State.hoppedIfTold (s : State) : State := if s.sync.shouldHop then s.hoppedAndTuned else s

@[simp] theorem hoppedIfTold_shouldHop (s : State) : s.hoppedIfTold.sync.shouldHop = s.sync.shouldHop := by
  unfold State.hoppedIfTold
  split <;> rfl

@[simp] theorem hoppedIfTold_rstIn (s : State) : s.hoppedIfTold.rstIn = s.rstIn := by
  unfold State.hoppedIfTold
  split <;> rfl

/-- A `receive` keeps the invariant: its mirror is that of `set_mode`, its payload a whole frame (10_state.md R55). -/
theorem regInv_afterReceive {s : State} (h : s.RegInv) (ticks : Nat) (fired prev : Bool) :
    (afterReceive s ticks fired prev).RegInv := by
  obtain ⟨hcfg, ⟨hraw, hdec, hmir⟩, hrest⟩ := regInv_setMode h s.cfg.modeStandby
  refine ⟨hcfg, ⟨?_, hdec, hmir⟩, hrest⟩
  cases fired with
  | false => exact hraw
  | true => exact answersFrom_length _ _ _

theorem regInv_afterHandle {s : State} (h : s.RegInv) (timedOut : Bool) : (afterHandle timedOut s).RegInv :=
  handle_eq_afterHandle h timedOut ▸ regInv_handle h timedOut

/-- The handler leaves the next hop as it was (42_hop_sync.md R179, 43_channel_plan.md R193). -/
theorem afterHandle_nextHop_hopFreq {s : State} (h : s.RegInv) (timedOut : Bool) :
    (afterHop (afterHandle timedOut s)).sync.hopFreq = (afterHop s).sync.hopFreq := by
  obtain ⟨hindex, -⟩ := handle_sameHop timedOut s
  rw [handle_eq_afterHandle h] at hindex
  simp only [afterHop, hindex]
  rfl

section
variable {s : State} (h : receiveGoesThrough s s.cfg.slots)
include h

theorem regInv_received : s.received.RegInv := regInv_afterReceive h.1 _ _ _

/-- After the `receive` the device still answers a push. -/
theorem received_succeeds : s.received.env.succeeds s.cfg.slots := by
  obtain ⟨-, -, hs, -⟩ := h
  exact pass_succeeds.mpr (succeeds_add.mp (succeeds_of_le hs (by split <;> omega))).2

theorem receive_received (k : Bool → Resume) : receive s.cfg.dwell.toNat k s = .ok () s.received := by
  obtain ⟨hreg, hclear, hs, hready⟩ := h
  exact receive_afterReceive _ k ⟨hreg, hclear, succeeds_of_le hs (by omega), hready⟩

theorem regInv_decided : s.decided.RegInv := regInv_afterHandle (regInv_received h) _

theorem decided_succeeds : s.decided.env.succeeds s.cfg.slots := afterLag_succeeds.mpr (received_succeeds h)

theorem decided_hopFreq : (afterHop s.decided).sync.hopFreq = (afterHop s).sync.hopFreq :=
  afterHandle_nextHop_hopFreq (regInv_received h) _

theorem exec_loopStep_ok (hrange : frequencyWord s.cfg (afterHop s).sync.hopFreq < 2 ^ 24) :
    exec .loopStep s = .next (ended .ok (hpResultNat s.decided) s.decided.hoppedIfTold) := by
  have ⟨_, ⟨hf, hr⟩, _⟩ := h
  have hexec : exec .loopStep s = .next (judge s (nextFreqInRange s) (loopTurn s).finish) := rfl
  have harg : nextFreqInRange s = true := (freqInRange_iff s.cfg s.nextFreq).mpr hrange
  have hdecide : loopDecide s.received = .ok (BitVec.ofNat 32 (hpResultNat s.decided)) s.decided.hoppedIfTold :=
    loopDecide_ok (regInv_received h) hr (received_succeeds h)
  rw [hexec, harg, judge_of_clear hf, loopTurn, receive_received h, ok_andThen, hdecide,
    finish_ok ((hoppedIfTold_rstIn s.decided).trans hr)]
  rfl

theorem exec_receiveD_ok : ∃ n, exec .receiveD s = .next (ended .ok n s.received) := by
  have ⟨_, ⟨hf, hr⟩, _⟩ := h
  exact ⟨_, next_judge_answer (v := fun _ => receiveResult) hf (receive_received h .receive) hr (receiveResult_eq _)⟩

/-- The elementary commands of a receive and its decision (44_transceiver.md R223, 42_hop_sync.md R172), whatever
follows them. -/
theorem runAll_receiveD_hpktR (is : List Instr) :
    runAll (.receiveD :: .hpktR :: is) s = runAll is (ended .ok (hpResultNat s.decided) s.decided) := by
  have ⟨_, ⟨hf, _⟩, _⟩ := h
  obtain ⟨n, hreceive⟩ := exec_receiveD_ok h
  have hhandle := exec_hpktR (s := ended .ok n s.received) (regInv_received h) hf
  rw [runAll_cons hreceive, runAll_cons hhandle]
  rfl

end

/-- Settles O50: the wait is the model's own, which ends as the rule says. -/
theorem loopStepReceivesDecidesAndHops : Obligations.LoopStepReceivesDecidesAndHops := by
  unfold Obligations.LoopStepReceivesDecidesAndHops
  intro s h hrange
  exact ⟨_, _, s.dwellWait.irqPrev, waitEnds_afterAnswers (waitEnds_waitEnd _ _), exec_loopStep_ok h hrange⟩

/-- Settles O51: the two sides of either pair leave the same state but for the answer. When the decision is to hop, the
elementary hop and tuning begin in the state it left. -/
theorem compositeCommandsEqualTheElementaryOnes : Obligations.CompositeCommandsEqualTheElementaryOnes := by
  unfold Obligations.CompositeCommandsEqualTheElementaryOnes
  intro s h hrange
  have ⟨hreg, hclear, hs, _⟩ := h
  have hpush : s.env.succeeds s.cfg.slots := succeeds_of_le hs (by omega)
  refine ⟨⟨_, _, exec_loopInit_ok hreg hclear hpush hrange, runAll_nextHop_setFreqH hreg hclear hpush hrange, rfl⟩,
    ended .ok (hpResultNat s.decided) s.decided.hoppedIfTold, ?_⟩
  have hshould : (ended .ok (hpResultNat s.decided) s.decided.hoppedIfTold).sync.shouldHop =
      s.decided.sync.shouldHop := hoppedIfTold_shouldHop _
  rw [hshould]
  cases hhop : s.decided.sync.shouldHop with
  | false =>
    refine ⟨_, exec_loopStep_ok h hrange, runAll_receiveD_hpktR h [], ?_⟩
    rw [State.hoppedIfTold, if_neg (by simp [hhop])]
  | true =>
    have htune := runAll_nextHop_setFreqH (s := ended .ok (hpResultNat s.decided) s.decided) (regInv_decided h) hclear
      (decided_succeeds h) ((decided_hopFreq h).symm ▸ hrange)
    refine ⟨_, exec_loopStep_ok h hrange, (runAll_receiveD_hpktR h _).trans htune, ?_⟩
    rw [State.hoppedIfTold, if_pos hhop]
    rfl

end Sys2Proof.Machine

/-! Host access (47_host_access.md). The only word of `NOP` is the zero word. `RD` answers with `readReg`, whose packed
fields are the digits of one number (`readReg_eq`), and does so in the fault state too. -/

namespace Sys2Proof.Machine

open Sys2Proof.Spec

/-! ### NOP -/

/-- Every argument bit of format Z is reserved (30_encoding.md R93). -/
theorem decode_nop_of_arg_ne_zero {arg : Word} (h : arg ≠ 0) :
    decode (wordOf 0x00 arg) = .error (.reservedBits 0x00) := by
  have hreserved : argOf (wordOf 0x00 arg) >>> 0 ≠ 0 := by simpa using h
  calc decode (wordOf 0x00 arg)
      = formatZ (wordOf 0x00 arg) .nop := by rw [decode, opOf_wordOf]; rfl
    _ = .error (.reservedBits (opOf (wordOf 0x00 arg))) := if_neg hreserved
    _ = .error (.reservedBits 0x00) := by rw [opOf_wordOf]

/-- Settles O17: the zero word is the word of `NOP`, any other word with its opcode is refused. -/
theorem nopDoesNothing : Obligations.NopDoesNothing := by
  unfold Obligations.NopDoesNothing
  refine ⟨fun _ => rfl, fun s arg rest hphase hr hhost => ?_⟩
  by_cases harg : arg = 0
  · subst harg
    exact step_of_decode hphase hr hhost (decode_encode .nop)
  · rw [if_neg harg]
    exact step_of_reject hphase hr hhost (decode_nop_of_arg_ne_zero harg)

/-! ### The packed registers -/

/-- A field put above the `k` lower bits of a word that packs `x`. -/
theorem or_ofNat_field {k x : Nat} (hx : x < 2 ^ k) (a : Nat) :
    BitVec.ofNat 32 x ||| BitVec.ofNat 32 a <<< k = BitVec.ofNat 32 (x + 2 ^ k * a) := by
  rw [BitVec.or_comm, ← ofNat_field a k hx, Nat.add_comm, Nat.mul_comm]

/-- Two fields, the upper one at bit `k`. -/
theorem fields_eq {m n k : Nat} (hn : n ≤ k) (hi : BitVec m) (lo : BitVec n) :
    hi.setWidth 32 <<< k ||| lo.setWidth 32 = BitVec.ofNat 32 (lo.toNat + 2 ^ k * hi.toNat) := by
  have hlo : lo.toNat < 2 ^ k := Nat.lt_of_lt_of_le lo.isLt (Nat.pow_le_pow_right two_pos hn)
  rw [← or_ofNat_field hlo, BitVec.ofNat_toNat, BitVec.ofNat_toNat, BitVec.or_comm]

/-- `STATUS_REG` packs nine flags and `hp_outcome` (10_state.md R53). -/
theorem statusReg_eq (s : State) : statusReg s = BitVec.ofNat 32 (registerNat s 0x00) := by
  have hfault := bit_lt s.flt.fault
  have hlocked := bit_lt s.sync.locked
  have hhop := bit_lt s.sync.shouldHop
  have hvalid := bit_lt s.rd.valid
  have hbatt := bit_lt s.rd.val.batt
  have hcrc := bit_lt s.chk.crcOk
  have hnfts := bit_lt s.rd.nfts
  have htimedOut := bit_lt s.drv.rxTimedOut
  have hdevRst := bit_lt s.drv.devRst
  rw [statusReg, flagAt_zero]
  simp (disch := omega) only [flagAt_eq, outcome_code_setWidth, or_ofNat_field]
  rfl

/-- `STATION` packs `station_number` above `station_filter`; the parameter is at most 15, so both registers hold it
(00_scope.md R6, 10_state.md R45, R53). -/
theorem stationRegs_eq {c : Config} (h : c.stationNumber ≤ 15) :
    c.stationReg.setWidth 32 <<< 8 ||| c.stationFilter.setWidth 32 =
      BitVec.ofNat 32 (c.stationNumber % 16 + 256 * c.stationNumber) := by
  have hreg : c.stationReg.toNat = c.stationNumber :=
    (BitVec.toNat_ofNat _ _).trans (Nat.mod_eq_of_lt (by omega))
  have hfilter : c.stationFilter.toNat = c.stationNumber % 16 := BitVec.toNat_ofNat _ _
  rw [fields_eq (by decide), hreg, hfilter]
  rfl

/-- `BUS_ERR` packs `err_rw` above `err_addr` (10_state.md R53). -/
theorem busErr_eq (errRw : Bool) (addr : Byte) :
    flagAt errRw 8 ||| addr.setWidth 32 = BitVec.ofNat 32 (addr.toNat + 256 * bit errRw) := by
  rw [flagAt_eq, BitVec.or_comm, ← BitVec.ofNat_toNat]
  exact or_ofNat_field (k := 8) addr.isLt _

/-- The byte that a number above 0x10 names, in `raw`, `dec` or the mirror (10_state.md R53). -/
def arrayByte (s : State) (n : Nat) : Byte :=
  if n < 0x30 then s.rawAt (n - 0x20) else if n < 0x40 then s.decAt (n - 0x30) else s.mirAt (n - 0x40)

theorem registerNat_array (s : State) (n : Nat) : registerNat s (n + 0x10) = (arrayByte s (n + 0x10)).toNat := by
  rw [arrayByte, apply_ite BitVec.toNat, apply_ite BitVec.toNat]
  rfl

/-- The word of each register is its number in the map (10_state.md R53). -/
theorem readReg_eq {s : State} (hstation : s.cfg.stationNumber ≤ 15) (r : Byte) :
    readReg s r = BitVec.ofNat 32 (registerNat s r.toNat) := by
  have hword (w : Word) : w = BitVec.ofNat 32 w.toNat := by simp
  unfold readReg
  match r.toNat with
  | 0x00 => exact statusReg_eq s
  | 0x01 | 0x02 | 0x03 | 0x06 | 0x0B | 0x0E => exact (BitVec.ofNat_toNat 32 _).symm
  | 0x04 | 0x07 | 0x08 => exact hword _
  | 0x05 => rfl
  | 0x09 => exact stationRegs_eq hstation
  | 0x0A | 0x0C | 0x0D => exact fields_eq (by decide) _ _
  | 0x0F => exact busErr_eq _ _
  | n + 0x10 =>
    rw [registerNat_array, BitVec.ofNat_toNat, arrayByte, apply_ite (BitVec.setWidth 32),
      apply_ite (BitVec.setWidth 32)]
    rfl

/-! ### RD -/

/-- `RD` of a number of the map runs whatever the fault state (47_host_access.md R266). -/
theorem exec_rd_of_inRange {s : State} {r : Byte} (h : registerNumber s.cfg r.toNat) :
    exec (.rd r) s = .next (readHostReg r s) :=
  congrArg Host.Outcome.next (if_pos ((rdInRange_iff s.cfg r).mpr h))

/-- Settles O18: the sample of `now` is the one number of the map whose read is not `readReg`. -/
theorem rdReadsTheRegisterMap : Obligations.RdReadsTheRegisterMap := by
  unfold Obligations.RdReadsTheRegisterMap
  rintro s r ⟨-, ⟨-, -, -, -, hstation, -⟩, -⟩
  refine ⟨wordOf_field rfl 0x01 r, fun hin hne => ?_, fun heq => ?_, exec_of_argument_outOfRange (.inr ⟨r, rfl⟩)⟩
  · have hr : r ≠ 0x10 := fun h => hne (congrArg BitVec.toNat h)
    rw [exec_rd_of_inRange hin, readHostReg, if_neg hr, readReg_eq hstation]
    rfl
  · have hr : r = 0x10 := BitVec.eq_of_toNat_eq heq
    have hnow (e : Env) : BitVec.ofNat 32 (e.time % 2 ^ 32) = e.now :=
      BitVec.eq_of_toNat_eq (by simp [Env.now])
    rw [exec_rd_of_inRange (.inl heq.le), readHostReg, if_pos hr, ended, hnow]
    rfl

end Sys2Proof.Machine

/-! The fault state and the cut by `rst_n` (60_exceptions.md R276, R279, 70_reset_and_hazards.md R310, R311). A command
that is refused, or that is no bus command, answers off the bus (`exec_answersOffBus`, `exec_of_fault`); a command that
`rst_n` cuts leaves the response channel as it was (`exec_cutSilently`), at whatever point of its push
(`writeSlots_cut`). -/

namespace Sys2Proof.Machine

open Sys2Proof.Spec

/-! ### Commands off the bus -/

/-- From `s` to `t` the fault registers and the trace have stayed. -/
def OffBus (s t : State) : Prop := t.flt = s.flt ∧ t.trace = s.trace

/-- The command begun in `s` has answered, off the bus and not with `ERR_BUS`. -/
def AnswersOffBus (s t : State) : Prop := OffBus s t ∧ ∃ r, t.resp = some r ∧ r.status ≠ .errBus

theorem OffBus.refl (s : State) : OffBus s s := ⟨rfl, rfl⟩

theorem offBus_handle (b : Bool) (s : State) : OffBus s (handle b s) := ⟨handle_flt b s, handle_trace b s⟩

theorem offBus_decodeReading (s : State) : OffBus s (decodeReading s) := by
  unfold decodeReading
  split <;> exact .refl s

theorem OffBus.respond {s t : State} (h : OffBus s t) {st : Status} (hst : st ≠ .errBus) (v : Word) :
    AnswersOffBus s (respond st v t) := ⟨h, _, rfl, hst⟩

theorem OffBus.respond_ok {s t : State} (h : OffBus s t) (v : Word) : AnswersOffBus s (Machine.respond .ok v t) :=
  h.respond (by decide) v

theorem refuse_answersOffBus (s : State) {st : Status} (hst : st ≠ .errBus) : AnswersOffBus s (refuse st s) :=
  (OffBus.refl s).respond hst 0

theorem readHostReg_answersOffBus (r : Byte) (s : State) : AnswersOffBus s (readHostReg r s) := by
  unfold readHostReg
  split
  · exact OffBus.respond_ok (t := s.sampling) ⟨rfl, rfl⟩ _
  · exact (OffBus.refl s).respond_ok _

theorem judge_answersOffBus {s run : State} {argOk : Bool} (hrun : AnswersOffBus s run) :
    GoesTo (AnswersOffBus s) (.next (judge s argOk run)) :=
  ⟨_, rfl, judge_cases (refuse_answersOffBus s (by decide)) (refuse_answersOffBus s (by decide)) fun _ _ => hrun⟩

theorem judgeInFault_answersOffBus {s run : State} {argOk : Bool} (hrun : AnswersOffBus s run) :
    GoesTo (AnswersOffBus s) (.next (judgeInFault s argOk run)) := by
  refine ⟨_, rfl, ?_⟩
  unfold judgeInFault
  split
  · exact hrun
  · exact refuse_answersOffBus s (by decide)

/-- Every command that is none of the nine of R276. -/
theorem exec_answersOffBus {i : Instr} (hi : busCommand i = false) (s : State) :
    GoesTo (AnswersOffBus s) (exec i s) := by
  have h := OffBus.refl s
  cases i with
  | nop => exact judgeInFault_answersOffBus (h.respond_ok _)
  | rd r => exact judgeInFault_answersOffBus (readHostReg_answersOffBus r s)
  | crcTbl | crcInit | crcByte | crcFrame | bitrev | frameLd | frameNorm | planFreq | planHop | nextHop =>
    exact judge_answersOffBus (OffBus.respond_ok ⟨rfl, rfl⟩ _)
  | decodeFrame => exact judge_answersOffBus ((offBus_decodeReading s).respond_ok _)
  | hpktI f => exact judge_answersOffBus ((offBus_handle f s).respond_ok _)
  | hpktR => exact judge_answersOffBus ((offBus_handle _ s).respond_ok _)
  | _ => cases hi

/-- Settles O13: the other fifteen commands answer off the bus. -/
theorem busErrorsComeOnlyFromBusCommands : Obligations.BusErrorsComeOnlyFromBusCommands := by
  unfold Obligations.BusErrorsComeOnlyFromBusCommands
  intro i s t hexec hi
  obtain ⟨u, hu, ⟨hflt, htrace⟩, hresp⟩ := exec_answersOffBus hi s
  cases hu.symm.trans hexec
  exact ⟨hflt, htrace, hresp⟩

/-! ### The fault state -/

/-- In the fault state a command that is neither `NOP` nor `RD` is refused (60_exceptions.md R279). -/
theorem exec_of_fault {i : Instr} {s : State} (hf : s.flt.fault = true) (hnop : i ≠ .nop) (hrd : ∀ r, i ≠ .rd r) :
    exec i s = .next (ended .errFault 0 s) := by
  cases i with
  | nop => exact absurd rfl hnop
  | rd r => exact absurd rfl (hrd r)
  | _ => exact congrArg Host.Outcome.next (judge_of_fault hf _ _)

/-- So in the fault state no command touches the bus. -/
theorem exec_offBus_of_fault {s : State} (hf : s.flt.fault = true) (i : Instr) : GoesTo (OffBus s) (exec i s) := by
  by_cases hi : busCommand i = true
  · exact ⟨_, exec_of_fault hf (by rintro rfl; cases hi) (by rintro r rfl; cases hi), .refl s⟩
  · obtain ⟨t, ht, hoff, -⟩ := exec_answersOffBus (Bool.eq_false_iff.mpr hi) s
    exact ⟨t, ht, hoff⟩

theorem fetch_of_idle {s : State} (hp : s.phase = .idle) (hr : s.rstIn ≠ some 0) : fetch s = fetchIdle s := by
  simp [fetch, hp, hr]

/-- What the ready port takes from the host is off the bus. -/
theorem fetchIdle_offBus (s : State) : (fetchIdle s).Sat (OffBus s) := by
  have h := OffBus.refl s
  unfold fetchIdle
  split
  case h_5 => split <;> exact h
  all_goals exact h

/-- A step of an idle machine in the fault state (60_exceptions.md R279). -/
theorem step_offBus_of_fault {s t : State} (hf : s.flt.fault = true) (hp : s.phase = .idle) (hr : s.rstIn ≠ some 0)
    (hstep : step s = .next t) : OffBus s t := by
  have hfetched := fetchIdle_offBus s
  rw [step, fetch_of_idle hp hr] at hstep
  cases hfetch : fetchIdle s with
  | run i u =>
    rw [hfetch] at hstep hfetched
    obtain ⟨hflt, htrace⟩ := hfetched
    obtain ⟨t', hexec, hflt', htrace'⟩ := exec_offBus_of_fault (hflt ▸ hf) i
    cases hexec.symm.trans hstep
    exact ⟨hflt'.trans hflt, htrace'.trans htrace⟩
  | settled u =>
    rw [hfetch] at hstep hfetched
    cases hstep
    exact hfetched
  | lost =>
    rw [hfetch] at hstep
    cases hstep

/-- Settles O12: the refusals are `exec_of_fault`, and `RD` runs as it does outside the fault state. -/
theorem faultStateRefusesAndStays : Obligations.FaultStateRefusesAndStays := by
  unfold Obligations.FaultStateRefusesAndStays
  intro s hf
  refine ⟨fun _ => exec_of_fault hf, rfl, fun r => ⟨fun hin hr => ?_, ?_, ?_⟩, fun _ => step_offBus_of_fault hf⟩
  · rw [exec_rd_of_inRange hin, readHostReg, if_neg hr]
  · rintro rfl
    exact exec_rd_of_inRange (.inl (le_refl 0x10))
  · exact exec_of_argument_outOfRange (.inr ⟨r, rfl⟩)

/-! ### A command cut by `rst_n` -/

/-- If `rst_n` has fallen by `t`, the command begun in `s` has not answered (70_reset_and_hazards.md R310). -/
def CutSilently (s t : State) : Prop := t.rstIn = some 0 → t.resp = s.resp

/-- A command only answers while `rst_n` is high. -/
theorem cutSilently_respond {s t : State} (h : t.rstIn ≠ some 0) (st : Status) (v : Word) :
    CutSilently s (respond st v t) := fun hcut => absurd hcut h

/-- No piece of a bus command answers but a failure, and that only while `rst_n` is high. -/
theorem cutSilently_closed (s : State) : Closed (fun t => t.resp = s.resp) (CutSilently s) where
  event _ _ _ _ h := h
  issue _ h := h
  phase _ _ h := h
  irqPrev _ _ h := h
  mode _ _ h := h
  tune _ _ h := h
  rssi _ _ h := h
  timedOut _ _ h := h
  raw _ _ _ h := h
  handle _ _ h := by simpa using h
  hop _ h := h
  cut _ h _ := fun _ => h
  fail _ _ _ _ hr := fun hcut => absurd hcut hr
  poll _ _ h _ := fun _ => h

section
variable {s : State}

theorem cutSilently_finish {r : Res Word} (h : r.Sat (fun _ t => t.resp = s.resp) (CutSilently s)) :
    CutSilently s r.finish :=
  h.finish (fun _ _ hu _ _ => hu) fun _ _ _ hr => cutSilently_respond hr _ _

theorem cutSilently_finish_answer {α : Type} {r : Res α} {v : α → State → Word}
    (h : r.Sat (fun _ t => t.resp = s.resp) (CutSilently s)) :
    CutSilently s (r.andThen fun a u => .ok (v a u) u).finish :=
  cutSilently_finish (h.andThen fun _ _ hu => hu)

theorem cutSilently_deviceReset : (deviceReset s).Sat (fun _ t => t.resp = s.resp) (CutSilently s) :=
  (cutSilently_closed s).deviceReset (H := fun t => t.resp = s.resp) (fun _ h => h) (fun _ _ _ _ h => h)
    (fun _ h _ _ => h) (fun _ h => h) rfl

/-- Every command begun with `rst_n` high: it is refused, answers where it would end, or goes through its pieces. -/
theorem exec_cutSilently (hr : s.rstIn ≠ some 0) (i : Instr) : GoesTo (CutSilently s) (exec i s) := by
  have C := cutSilently_closed s
  have hrefuse : ∀ st, CutSilently s (refuse st s) := fun st => cutSilently_respond hr st 0
  have hans : ∀ {v t}, t.rstIn = s.rstIn → CutSilently s (respond .ok v t) := fun h =>
    cutSilently_respond (h ▸ hr) _ _
  cases i with
  | nop => exact judgeInFault_goesTo hrefuse (hans rfl)
  | rd r =>
    refine judgeInFault_goesTo hrefuse ?_
    unfold readHostReg
    split <;> exact hans rfl
  | crcTbl | crcInit | crcByte | crcFrame | bitrev | frameLd | frameNorm | planFreq | planHop | nextHop =>
    exact judge_goesTo hrefuse fun _ => hans rfl
  | decodeFrame =>
    refine judge_goesTo hrefuse fun _ => hans ?_
    unfold decodeReading
    split <;> rfl
  | hpktI | hpktR => exact judge_goesTo hrefuse fun _ => hans (handle_rstIn _ s)
  | syncRegs => exact judge_goesTo hrefuse fun _ => cutSilently_finish_answer (C.push rfl)
  | setFreqI w => exact judge_goesTo hrefuse fun _ => cutSilently_finish_answer (C.setFrequency w rfl)
  | setFreqH => exact judge_goesTo hrefuse fun _ => cutSilently_finish_answer (C.setFrequency _ rfl)
  | receiveI w => exact judge_goesTo hrefuse fun _ => cutSilently_finish_answer (C.receive w.toNat .receive rfl)
  | receiveD => exact judge_goesTo hrefuse fun _ => cutSilently_finish_answer (C.receive _ .receive rfl)
  | devReset => exact judge_goesTo hrefuse fun _ => cutSilently_finish_answer cutSilently_deviceReset
  | readRssi f =>
    exact judge_goesTo hrefuse fun _ =>
      cutSilently_finish ((C.sampleRssi f .readRssi rfl).andThen fun v u hu => C.rssi u v hu)
  | loopInit => exact judge_goesTo hrefuse fun _ => cutSilently_finish_answer (C.hopAndTune rfl)
  | loopStep =>
    exact judge_goesTo hrefuse fun _ =>
      cutSilently_finish ((C.receive _ .loopStep rfl).andThen fun _ _ hu => C.loopDecide hu)

theorem resume_cutSilently (k : Resume) : CutSilently s (resume k s) :=
  (cutSilently_closed s).resume (fun _ _ _ hr => cutSilently_respond hr _ _) k rfl

end

/-- A step begins a command with no response presented and `rst_n` high, or settles with no response if `rst_n` has
fallen. -/
def Fetched.CutSilently (f : Fetched) : Prop :=
  match f with
  | .run _ s => s.rstIn ≠ some 0 ∧ s.resp = none
  | .settled s => s.rstIn = some 0 → s.resp = none
  | .lost => True

theorem fetchIdle_cutSilently {s : State} (hr : s.rstIn ≠ some 0) : (fetchIdle s).CutSilently := by
  unfold fetchIdle
  split
  case h_5 =>
    split
    · exact ⟨hr, rfl⟩
    · exact fun hcut => absurd hcut hr
  all_goals exact fun _ => rfl

theorem fetch_cutSilently {s : State} (hr : s.rstIn ≠ some 0) : (fetch s).CutSilently := by
  unfold fetch
  rw [if_neg hr]
  cases s.phase with
  | pollRssi k => exact resume_cutSilently (s := s.unpresent) k
  | idle => exact fetchIdle_cutSilently hr
  | run | waitIrq | rstHigh | rstSettle => trivial

theorem step_cutSilently {s t : State} (hr : s.rstIn ≠ some 0) (hstep : step s = .next t) (hcut : t.rstIn = some 0) :
    t.resp = none := by
  have hf := fetch_cutSilently hr
  unfold step at hstep
  cases hfetch : fetch s with
  | run i u =>
    rw [hfetch] at hstep hf
    obtain ⟨hru, hresp⟩ := hf
    obtain ⟨t', hexec, ht'⟩ := exec_cutSilently hru i
    cases hexec.symm.trans hstep
    exact (ht' hcut).trans hresp
  | settled u =>
    rw [hfetch] at hstep hf
    cases hstep
    exact hf hcut
  | lost =>
    rw [hfetch] at hstep
    cases hstep

/-- The step after a cut is a core reset, off the bus and without a response (70_reset_and_hazards.md R310, R311). -/
theorem step_after_cut {t : State} (h : t.rstIn = some 0) :
    ∃ u, step t = .next u ∧ u.resp = none ∧ u.trace = t.trace ∧ u.phase = .idle ∧ u.drv.devRst = false ∧
      u.flt.fault = false :=
  ⟨_, step_of_cut h, rfl, rfl, rfl, rfl, rfl⟩

/-- A run of slot writes from `s` that `rst_n` cuts after `n` points: half of them writes that succeeded, and one more
in flight when `n` is odd (70_reset_and_hazards.md R310). -/
def cutWrites (ks : List Nat) (n : Nat) (s : State) : State :=
  { s with
    rstIn := some 0
    env := s.env.afterAnswers (n / 2)
    trace := s.trace ++ slotWrites s.cfg s.drv.mir (ks.take (n / 2)) ++
      if n % 2 = 1 then [.writeCut (s.cfg.addrAt (ks.getD (n / 2) 0)) (s.mirAt (ks.getD (n / 2) 0))] else [] }

theorem cutWrites_zero (ks : List Nat) {s : State} (hr : s.rstIn = some 0) : cutWrites ks 0 s = s := by
  simp [cutWrites, slotWrites, Env.afterAnswers, ← hr]

/-- Two points are one write that succeeded. -/
theorem cutWrites_cons (k : Nat) (ks : List Nat) (n : Nat) {s : State} (hok : s.env.nextAnswer.ok = true) :
    cutWrites (k :: ks) (n + 2) s = cutWrites ks n (s.afterWrite (s.cfg.addrAt k) (s.mirAt k)) := by
  simp [cutWrites, Env.afterAnswers, slotWrites, hok, State.afterWrite, State.issue, State.passEvent, State.mirAt]

/-- A run of slot writes stops where `rst_n` falls, or has just ended there. -/
theorem writeSlots_cut (ks : List Nat) {n : Nat} {s : State} (hr : s.rstIn = some n) (hn : n ≤ 2 * ks.length)
    (hs : s.env.succeeds ks.length) :
    (writeSlots ks s).Sat (fun _ t => t = cutWrites ks n s) (· = cutWrites ks n s) := by
  induction ks generalizing n s with
  | nil =>
    obtain rfl : n = 0 := by simpa using hn
    exact (cutWrites_zero [] hr).symm
  | cons k ks ih =>
    obtain ⟨hok, hrest⟩ := succeeds_succ.mp hs
    match n with
    | 0 => simp [writeSlots, busWrite, transact, unlessReset, hr, cutWrites_zero]
    | 1 =>
      simp [writeSlots, busWrite, transact, unlessReset, hr, cutWrites, slotWrites, Env.afterAnswers, State.cutInFlight,
        State.passEvent]
    | n + 2 =>
      have hwrite : busWrite (s.cfg.addrAt k) (s.mirAt k) s = .ok () (s.afterWrite (s.cfg.addrAt k) (s.mirAt k)) := by
        simp [busWrite, transact, unlessReset, hr, hok]
      rw [writeSlots, hwrite, ok_andThen, cutWrites_cons k ks n hok]
      exact ih (by simp [hr]) (by simpa [Nat.mul_add] using hn) hrest

theorem presentOrder_length {s : State} (h : 1 ≤ s.cfg.slots) : (presentOrder s).length = s.cfg.slots := by
  rw [← pushOrder_length s.cfg (s.mirAt 0) h, pushOrder_eq]
  rfl

/-- `SYNC_REGS` cut at any point of its push, its answer among them (70_reset_and_hazards.md R310). -/
theorem exec_syncRegs_cut {s : State} {n : Nat} (hslots : 1 ≤ s.cfg.slots) (hf : s.flt.fault = false)
    (hr : s.rstIn = some n) (hn : n ≤ 2 * s.cfg.slots) (hs : s.env.succeeds s.cfg.slots) :
    exec .syncRegs s = .next (cutWrites (presentOrder s) n s) := by
  have hlen := presentOrder_length hslots
  have hcut : (push s).Sat (fun _ t => t = cutWrites (presentOrder s) n s) (· = cutWrites (presentOrder s) n s) := by
    rw [push, pushOrder_eq]
    exact writeSlots_cut (presentOrder s) hr (by rwa [hlen]) (by rwa [hlen])
  have hfinish : ((push s).andThen fun _ s => .ok 0 s).finish = cutWrites (presentOrder s) n s :=
    Res.Sat.finish (Q := fun _ t => t = cutWrites (presentOrder s) n s) (E := (· = cutWrites (presentOrder s) n s))
      (hcut.andThen fun _ _ h => h) (fun _ _ h _ => h) fun _ _ h hne => absurd (by rw [h]; rfl) hne
  exact congrArg Host.Outcome.next ((judge_of_clear hf _).trans hfinish)

/-- Settles O56: a cut command by `exec_cutSilently`, a cut step by `step_cutSilently`, a cut `SYNC_REGS` by
`exec_syncRegs_cut`. -/
theorem commandCutByResetGivesNoResponse : Obligations.CommandCutByResetGivesNoResponse := by
  unfold Obligations.CommandCutByResetGivesNoResponse
  refine ⟨fun i s t hr hexec hcut => ?_, fun s t hr hstep hcut => ?_, fun s w rest hp hr hhost => ?_,
    fun s n hcfg hf hr _ hn hs => exec_syncRegs_cut (slots_pos hcfg) hf hr hn hs⟩
  · obtain ⟨u, hu, hsilent⟩ := exec_cutSilently hr i
    cases hu.symm.trans hexec
    exact ⟨hsilent hcut, step_after_cut hcut⟩
  · exact ⟨step_cutSilently hr hstep hcut, step_after_cut hcut⟩
  · have hfetch : fetch s = .settled { s.takeInput rest with rstIn := some 0 } := by
      rw [fetch_of_idle hp hr, fetchIdle, hhost]
    exact ⟨{ s.takeInput rest with rstIn := some 0 }, by rw [step, hfetch], rfl, rfl, rfl, rfl⟩

/-- A `DEV_RESET` whose line has just risen as `rst_n` falls stops in its first delay (44_transceiver.md R228). -/
theorem exec_devReset_cut {s : State} (hf : s.flt.fault = false) (hr : s.rstIn = some 1) :
    exec .devReset s = .next
      { s.passEvent (.rst true) s.env with phase := .rstHigh, drv := { s.drv with devRst := true } } := by
  refine congrArg Host.Outcome.next ((judge_of_clear hf _).trans ?_)
  simp [deviceReset, driveReset, delay, unlessReset, hr]

/-- Settles O16: the line is high where the command was cut, and core reset puts it back. -/
theorem coreResetCutsTheResetPulse : Obligations.CoreResetCutsTheResetPulse := by
  unfold Obligations.CoreResetCutsTheResetPulse
  intro s hf hr
  exact ⟨_, _, exec_devReset_cut hf hr, rfl, rfl, rfl, step_of_cut (by simp [hr]), rfl, rfl, rfl, rfl⟩

end Sys2Proof.Machine

/-! What a failed transaction leaves (60_exceptions.md R278). A run of transactions stops at the first that fails, those
before it having gone through (`writeSlots_failed`, `sampleRssi_failed`, `readPayload_failed`); so does every procedure
it is in, and the command (`next_judge_stop`). Where a `receive` has come to is said stage by stage: its push into RX
(`receive_failed_rx`), its sample (`receive_failed_sample`), its tail (`receive_failed_tail`). -/

namespace Sys2Proof.Machine

open Sys2Proof.Spec

/-! ### One failed transaction -/

/-- The answer of a bus error: the address under the read bit (60_exceptions.md R278). -/
theorem busErrorResult_eq (isRead : Bool) (a : Byte) :
    (BitVec.ofBool isRead ++ a).setWidth 32 = BitVec.ofNat 32 (bit isRead * 256 + a.toNat) := by
  have hbit : (BitVec.ofBool isRead).toNat = bit isRead := by cases isRead <;> rfl
  apply BitVec.eq_of_toNat_eq
  rw [BitVec.toNat_setWidth, toNat_append_byte, hbit, BitVec.toNat_ofNat]

section
variable {s : State} (hr : s.rstIn = none) (hfail : s.env.nextAnswer.ok = false)
include hr hfail

theorem busWrite_failed (a v : Byte) : busWrite a v s = .stop (failedWrite a v s) := by
  have haddr : bit false * 256 + a.toNat = a.toNat := Nat.zero_add _
  rw [busWrite_fail hr hfail, raiseBusError, busErrorResult_eq, haddr, afterWrite_of_none hr, hfail]
  rfl

theorem busRead_failed (a : Byte) : busRead a s = .stop (failedRead a s) := by
  rw [busRead_fail hr hfail, raiseBusError, busErrorResult_eq, afterRead_of_none hr, hfail]
  rfl

end

theorem pass_failsAt {e : Env} {n k : Nat} : failsAt (e.pass n) k ↔ failsAt e k := by
  simp [failsAt, pass_afterAnswers]

theorem afterLag_failsAt {e : Env} {k : Nat} : failsAt e.afterLag k ↔ failsAt e k := by
  simp [failsAt, afterLag_afterAnswers]

/-- A command out of fault ends where one of its pieces stops. -/
theorem next_judge_stop {α : Type} {s t : State} {r : Res α} (hf : s.flt.fault = false) (hstop : r = .stop t)
    (rest : α → State → Res Word) :
    (.next (judge s true (r.andThen rest).finish) : Host.Outcome State Fault Refusal) = .next t := by
  rw [judge_of_clear hf, hstop, stop_andThen, finish_stop]

/-! ### A failed push -/

theorem writeSlots_append (ks ls : List Nat) (s : State) :
    writeSlots (ks ++ ls) s = (writeSlots ks s).andThen fun _ t => writeSlots ls t := by
  induction ks generalizing s with
  | nil => rfl
  | cons k ks ih => simp only [List.cons_append, writeSlots, andThen_assoc, ih]

/-- A run of slot writes stops at the first that fails (44_transceiver.md R212). -/
theorem writeSlots_failed {ks : List Nat} {k : Nat} {s : State} (hr : s.rstIn = none) (hk : k < ks.length)
    (h : failsAt s.env k) : writeSlots ks s = .stop (failedPush ks k s) := by
  obtain ⟨hs, hfail⟩ := h
  have hlen : (ks.take k).length = k := List.length_take_of_le hk.le
  have hsplit : ks = ks.take k ++ ks.getD k 0 :: ks.drop (k + 1) := by
    rw [List.getD_eq_getElem _ _ hk, ← List.drop_eq_getElem_cons hk, List.take_append_drop]
  have hdone : writeSlots (ks.take k) s = .ok () (pushed ks k s) := by
    rw [writeSlots_ok _ hr (hlen.symm ▸ hs), hlen]
    rfl
  calc writeSlots ks s
      = writeSlots (ks.getD k 0 :: ks.drop (k + 1)) (pushed ks k s) := by
        conv_lhs => rw [hsplit]
        rw [writeSlots_append, hdone, ok_andThen]
    _ = .stop (failedPush ks k s) := by
        rw [writeSlots, busWrite_failed (s := pushed ks k s) hr hfail, stop_andThen]
        rfl

theorem push_failed {s : State} {k : Nat} (hr : s.rstIn = none) (hk : k < s.cfg.slots) (h : failsAt s.env k) :
    push s = .stop (failedPush (presentOrder s) k s) := by
  have hlen := presentOrder_length (s := s) (by omega)
  rw [push, pushOrder_eq]
  exact writeSlots_failed (ks := presentOrder s) hr (by rwa [hlen]) h

/-- A push with the mode byte first stops at the slot whose number is that of the write (44_transceiver.md R212). -/
theorem failedPush_modeFirst {s : State} {k : Nat} (hk : k < s.cfg.slots) :
    failedPush (modeFirst s.cfg) k s =
      ended .errBus (s.cfg.addrAt k).toNat
        { s with
          flt := { fault := true, errAddr := s.cfg.addrAt k, errRw := false }
          env := s.env.afterAnswers (k + 1)
          trace := s.trace ++ slotWrites s.cfg s.drv.mir (List.range k) ++
            [.write (s.cfg.addrAt k) (s.mirAt k) false] } := by
  have hslot : (modeFirst s.cfg).getD k 0 = k := by simp [modeFirst, hk]
  have hdone : (modeFirst s.cfg).take k = List.range k := by simp [modeFirst, List.take_range, hk.le]
  rw [failedPush, hslot, afterAnswers_add, ← hdone]
  rfl

/-- A tuning whose push fails leaves the new carrier in the mirror (44_transceiver.md R217). -/
theorem setFrequency_failed {s : State} {k : Nat} (hz : Word) (hcfg : s.cfg.wf) (hm : Memory.wf s) (hr : s.rstIn = none)
    (hk : k < s.cfg.slots) (h : failsAt s.env k) :
    setFrequency hz s = .stop (failedPush (modeFirst s.cfg) k (withMirror (tunedMirror s hz) s)) := by
  rw [setFrequency, tuneMirror_eq, push_failed (s := withMirror (tunedMirror s hz) s) hr hk h,
    presentOrder_tuned hz hcfg hm]

/-- A hop whose tuning fails stands (46_receive_loop.md R256, R257). -/
theorem hopAndTune_failed {s : State} {k : Nat} (hcfg : s.cfg.wf) (hm : Memory.wf s) (hr : s.rstIn = none)
    (hk : k < s.cfg.slots) (h : failsAt s.env k) :
    hopAndTune s = .stop (failedPush (modeFirst s.cfg) k
      (withMirror (tunedMirror (afterHop s) (afterHop s).sync.hopFreq) (afterHop s))) := by
  rw [hopAndTune, nextHop_eq_afterHop]
  exact setFrequency_failed (s := afterHop s) _ hcfg hm hr hk (afterLag_failsAt.mpr h)

/-- A device reset whose push fails has made its pulse (44_transceiver.md R228). -/
theorem exec_devReset_failed {s : State} {k : Nat} (hclear : s.clear) (hk : k < s.cfg.slots) (hfail : failsAt s.env k)
    (hline : s.drv.devRst = false) : exec .devReset s = .next (failedPush (presentOrder s) k (afterPulse s)) := by
  obtain ⟨hf, hr⟩ := hclear
  refine next_judge_stop hf ?_ _
  rw [deviceReset_eq_push hline hr, push_failed (s := (afterPulse s).enter .run) hr hk (pass_failsAt.mpr hfail)]
  rfl

section
variable {s : State} {k : Nat} (h : s.RegInv) (hclear : s.clear) (hk : k < s.cfg.slots) (hfail : failsAt s.env k)
include h hclear hk hfail

/-- `SET_FREQ.*` with its frequency in range (44_transceiver.md R215, R216). -/
theorem judge_setFreq_failed {hz : Word} (hrange : frequencyWord s.cfg hz < 2 ^ 24) :
    (.next (judge s (s.cfg.freqInRange hz) (setFreqCommand hz s).finish) : Host.Outcome State Fault Refusal) =
      .next (failedPush (modeFirst s.cfg) k (withMirror (tunedMirror s hz) s)) := by
  obtain ⟨hcfg, hm, -⟩ := h
  obtain ⟨hf, hr⟩ := hclear
  rw [(freqInRange_iff s.cfg hz).mpr hrange]
  exact next_judge_stop hf (setFrequency_failed hz hcfg hm hr hk hfail) _

theorem exec_loopInit_failed (hrange : frequencyWord s.cfg (afterHop s).sync.hopFreq < 2 ^ 24) :
    exec .loopInit s = .next (failedPush (modeFirst s.cfg) k
      (withMirror (tunedMirror (afterHop s) (afterHop s).sync.hopFreq) (afterHop s))) := by
  obtain ⟨hcfg, hm, -⟩ := h
  obtain ⟨hf, hr⟩ := hclear
  have hexec : exec .loopInit s =
      .next (judge s (nextFreqInRange s) ((hopAndTune s).andThen fun _ s => .ok s.sync.hopFreq s).finish) := rfl
  have harg : nextFreqInRange s = true := (freqInRange_iff s.cfg s.nextFreq).mpr hrange
  rw [hexec, harg]
  exact next_judge_stop hf (hopAndTune_failed hcfg hm hr hk hfail) _

end

/-- Settles O42: the command is a tuning, and its push has the mode byte first. -/
theorem failedPushStopsAtTheFailedWrite : Obligations.FailedPushStopsAtTheFailedWrite := by
  unfold Obligations.FailedPushStopsAtTheFailedWrite
  intro s w k h hclear hrange hk hs hfail
  have hstopped : exec (.setFreqI w) s = _ := judge_setFreq_failed h hclear hk ⟨hs, hfail⟩ hrange
  exact hstopped.trans (congrArg Host.Outcome.next (failedPush_modeFirst (s := withMirror (tunedMirror s w) s) hk))

/-- Settles O52: each command is a push, of the mirror as it stands or as a tuning has left it. -/
theorem failedPushEndsSyncRegsDevResetSetFreqHAndLoopInit :
    Obligations.FailedPushEndsSyncRegsDevResetSetFreqHAndLoopInit := by
  unfold Obligations.FailedPushEndsSyncRegsDevResetSetFreqHAndLoopInit
  intro s k h hclear hk hfail
  have ⟨hf, hr⟩ := hclear
  exact ⟨next_judge_stop hf (push_failed hr hk hfail) _, exec_devReset_failed hclear hk hfail,
    judge_setFreq_failed h hclear hk hfail, exec_loopInit_failed h hclear hk hfail⟩

/-! ### A failed sample -/

section
variable {s : State} (hr : s.rstIn = none)
include hr

theorem triggerWrite_ok (hok : s.env.nextAnswer.ok = true) :
    busWrite s.cfg.addrRssiCfg s.cfg.rssiStart s = .ok () (afterTrigger s) := by
  rw [busWrite_ok hr hok, afterWrite_of_none hr, hok]
  rfl

theorem pollOnce_failed (k : Resume) (hfail : s.env.nextAnswer.ok = false) :
    pollOnce k s = .stop (failedRead s.cfg.addrRssiCfg s) := by
  rw [pollOnce, busRead_failed (s := s.enter (.pollRssi k)) hr hfail, stop_andThen]
  rfl

/-- The value read that follows a ready poll (45_rssi.md R249). -/
theorem pollAndValue_failed (k : Resume) (hfail : failsAt s.env 1)
    (hready : s.env.answerAt 0 &&& s.cfg.rssiDone ≠ 0) :
    ((pollOnce k s).andThen fun _ s => readRssiValue s) = .stop (failedRead s.cfg.addrRssiVal (afterPoll s)) := by
  obtain ⟨hs, hvalue⟩ := hfail
  have hpolled : pollOnce k s = .ok () ((afterPoll s).enter .run) := pollOnce_ready k hr (succeeds_one.mp hs) hready
  rw [hpolled, ok_andThen, readRssiValue, busRead_failed (s := (afterPoll s).enter .run) hr hvalue]
  rfl

/-- A sample stops at the transaction that fails: the trigger, the poll or the value (45_rssi.md R249). -/
theorem sampleRssi_failed {trigger : Bool} {j : Nat} (k : Resume) (hj : j < sampleSteps trigger) (h : failsAt s.env j)
    (hready : j = 2 → s.env.answerAt 1 &&& s.cfg.rssiDone ≠ 0) :
    sampleRssi trigger k s = .stop (failedSample trigger j s) := by
  cases trigger with
  | false =>
    obtain rfl : j = 0 := Nat.lt_one_iff.mp hj
    obtain ⟨-, hfail⟩ := h
    exact busRead_failed hr hfail _
  | true =>
    match j, hj with
    | 0, _ =>
      obtain ⟨-, hfail⟩ := h
      simp only [sampleRssi, if_true]
      rw [busWrite_failed hr hfail, stop_andThen]
      rfl
    | 1, _ =>
      obtain ⟨hs, hfail⟩ := h
      simp only [sampleRssi, if_true]
      rw [triggerWrite_ok hr (succeeds_one.mp hs), ok_andThen, pollOnce_failed (s := afterTrigger s) hr k hfail,
        stop_andThen]
      rfl
    | 2, _ =>
      obtain ⟨hs, hfail⟩ := h
      obtain ⟨htrigger, hpoll⟩ := succeeds_succ.mp (show s.env.succeeds (1 + 1) from hs)
      simp only [sampleRssi, if_true]
      rw [triggerWrite_ok hr htrigger, ok_andThen]
      exact pollAndValue_failed (s := afterTrigger s) hr k ⟨hpoll, hfail⟩ (hready rfl)

end

/-- A turn of the poll is its read, the value read, and the rest of the command (45_rssi.md R247, R249). -/
theorem step_pollAndValue {s : State} {k : Resume} (hr : s.rstIn = none) (hp : s.phase = .pollRssi k) :
    step s = .next ((((pollOnce k s.unpresent).andThen fun _ s => readRssiValue s).andThen (afterRssi k)).finish) := by
  rw [step_of_poll (by simp [hr]) hp, andThen_assoc]
  rfl

/-- Settles O54: the sample of the command, or the poll read and the value read of a later turn. -/
theorem failedRssiTransactionKeepsTheOldByte : Obligations.FailedRssiTransactionKeepsTheOldByte := by
  unfold Obligations.FailedRssiTransactionKeepsTheOldByte
  rintro s ⟨hf, hr⟩
  refine ⟨fun trigger j hj hfail hready => ?_, fun k hp => ⟨fun hfail => ?_, fun hfail hready => ?_⟩⟩
  · exact next_judge_stop hf (sampleRssi_failed hr .readRssi hj hfail hready) _
  · rw [step_pollAndValue hr hp, pollOnce_failed (s := s.unpresent) hr k hfail.2]
    rfl
  · rw [step_pollAndValue hr hp, pollAndValue_failed (s := s.unpresent) hr k hfail hready]
    rfl

/-! ### A failed payload read -/

theorem readPayload_append (is js : List Nat) (s : State) :
    readPayload (is ++ js) s = (readPayload is s).andThen fun _ t => readPayload js t := by
  induction is generalizing s with
  | nil => rfl
  | cons i is ih => simp only [List.cons_append, readPayload, andThen_assoc, ih]

theorem afterAnswers_succ (e : Env) (k : Nat) : e.afterAnswers (k + 1) = (e.afterAnswers k).afterAnswer :=
  afterAnswers_add k 1 e

theorem answersFrom_succ (e : Env) (k : Nat) : e.answersFrom 0 (k + 1) = e.answersFrom 0 k ++ [e.answerAt k] := by
  have happend : e.answers (k + 1) = e.answers k ++ [(e.afterAnswers k).nextAnswer] := answers_add k 1 e
  simp [Env.answersFrom, Env.afterAnswers, happend, Env.answerAt]

/-- One more payload read puts its byte after those before it (44_transceiver.md R220 step 5). -/
theorem afterPayload_succ {s : State} {k : Nat} (hr : s.rstIn = none) (hk : k < s.buf.raw.length)
    (hok : (s.env.afterAnswers k).nextAnswer.ok = true) :
    ((afterPayload k s).afterRead s.cfg.addrFifo).setRaw k (s.env.answerAt k) = afterPayload (k + 1) s := by
  have hraw : (s.env.answersFrom 0 k ++ s.buf.raw.drop k).set k (s.env.answerAt k) =
      s.env.answersFrom 0 (k + 1) ++ s.buf.raw.drop (k + 1) := by
    rw [answersFrom_succ, List.set_append_right _ _ (by simp), List.drop_eq_getElem_cons hk]
    simp only [answersFrom_length, Nat.sub_self, List.set_cons_zero, List.append_assoc, List.singleton_append]
  have hanswer : (afterPayload k s).env.nextAnswer.ok = true := hok
  rw [afterRead_of_none (s := afterPayload k s) hr, hanswer]
  simp only [State.setRaw, afterPayload, hraw, afterAnswers_succ, answersFrom_succ, List.map_append, List.append_assoc]
  rfl

/-- The first payload reads, and the buffer from them on as before (44_transceiver.md R220 step 5). -/
theorem readPayload_ok_of_le {s : State} {k : Nat} (hr : s.rstIn = none) (hk : k ≤ s.buf.raw.length)
    (hs : s.env.succeeds k) : readPayload (List.range k) s = .ok () (afterPayload k s) := by
  induction k with
  | zero => simp [readPayload, afterPayload, Env.answersFrom, Env.answers, Env.afterAnswers]
  | succ k ih =>
    obtain ⟨hbefore, hlast⟩ := succeeds_add.mp hs
    have hok := succeeds_one.mp hlast
    rw [List.range_succ, readPayload_append, ih (by omega) hbefore, ok_andThen, readPayload,
      busRead_ok (s := afterPayload k s) hr hok, ok_andThen, readPayload, ← afterPayload_succ hr hk hok]
    rfl

theorem readPayload_failed {s : State} {n k : Nat} (hr : s.rstIn = none) (hn : n ≤ s.buf.raw.length) (hk : k < n)
    (h : failsAt s.env k) : readPayload (List.range n) s = .stop (failedRead s.cfg.addrFifo (afterPayload k s)) := by
  obtain ⟨hs, hfail⟩ := h
  obtain ⟨rest, rfl⟩ : ∃ rest, n = k + (rest + 1) := ⟨n - k - 1, by omega⟩
  have hsplit : List.range (k + (rest + 1)) = List.range k ++ k :: List.range' (k + 1) rest := by
    rw [List.range_eq_range', List.range_eq_range', ← List.range'_append_1, Nat.zero_add, List.range'_succ]
  rw [hsplit, readPayload_append, readPayload_ok_of_le hr (by omega) hs, ok_andThen, readPayload,
    busRead_failed (s := afterPayload k s) hr hfail, stop_andThen]
  rfl

/-! ### A receive that stops -/

/-- The order of a push right after `set_mode` is that of the mode set (44_transceiver.md R211, R212). -/
theorem presentOrder_setMode {s : State} (m : Byte) (hcfg : s.cfg.wf) (hm : Memory.wf s) :
    presentOrder (setMode m s) = s.cfg.pushOrder (s.cfg.withMode (s.mirAt 0) m) := by
  have hslots := slots_pos hcfg
  obtain ⟨-, -, hmir⟩ := hm
  have hbyte : (setMode m s).mirAt 0 = s.cfg.withMode (s.mirAt 0) m := modeMirror_getD _ (by omega)
  rw [← hbyte, pushOrder_eq]
  rfl

/-- Into RX the mode byte is last, out of it first (44_transceiver.md R212). -/
theorem presentOrder_rx {s : State} (hcfg : s.cfg.wf) (hm : Memory.wf s) :
    presentOrder (setMode s.cfg.modeRx s) = modeLast s.cfg := by
  have ⟨_, _, _, hmode⟩ := hcfg
  exact (presentOrder_setMode _ hcfg hm).trans (pushOrder_rx hmode _)

theorem presentOrder_standby {s : State} (hcfg : s.cfg.wf) (hm : Memory.wf s) :
    presentOrder (setMode s.cfg.modeStandby s) = modeFirst s.cfg := by
  have ⟨_, _, _, hmode⟩ := hcfg
  exact (presentOrder_setMode _ hcfg hm).trans (pushOrder_standby hmode _)

/-- `s` with its mirror in standby (44_transceiver.md R220 step 4). -/
def State.inStandby (s : State) : State := withMirror (mirrorInMode s s.cfg.modeStandby) s

/-- A tail that fails in its push into standby or in its payload (44_transceiver.md R220 steps 4 and 5). -/
theorem receiveTail_failed {s : State} (hcfg : s.cfg.wf) (hm : Memory.wf s) (hr : s.rstIn = none) (fired : Bool) :
    (∀ k < s.cfg.slots, failsAt s.env k →
      receiveTail fired s.drv.rssiRaw s = .stop (failedPush (modeFirst s.cfg) k s.inStandby)) ∧
    (s.env.succeeds s.cfg.slots → fired = true → ∀ k < s.cfg.frameLen,
      failsAt (pushed (modeFirst s.cfg) s.cfg.slots s.inStandby).env k →
        receiveTail fired s.drv.rssiRaw s = .stop (failedRead s.cfg.addrFifo
          (afterPayload k (pushed (modeFirst s.cfg) s.cfg.slots s.inStandby)))) := by
  have hpush : receiveTail fired s.drv.rssiRaw s = (push s.inStandby).andThen fun _ s => receivePayload fired s := rfl
  have horder : presentOrder s.inStandby = modeFirst s.cfg := presentOrder_standby hcfg hm
  constructor
  · intro k hk h
    rw [hpush, push_failed (s := s.inStandby) hr hk h, horder, stop_andThen]
  · rintro hs rfl k hk h
    have hpushed : push s.inStandby = .ok () (pushed (modeFirst s.cfg) s.cfg.slots s.inStandby) := by
      rw [push_presentOrder (s := s.inStandby) (slots_pos hcfg) hr hs, horder, pushed,
        List.take_of_length_le (by simp [modeFirst])]
      rfl
    obtain ⟨hraw, -⟩ := hm
    have hread := readPayload_failed (s := pushed (modeFirst s.cfg) s.cfg.slots s.inStandby) hr hraw.ge hk h
    rw [hpush, hpushed, ok_andThen]
    exact congrArg (Res.andThen · fun _ s => .ok () (s.setTimedOut false)) hread

/-- How the wait of a `receive` ends that begins after the push into RX (44_transceiver.md R220). -/
def State.rxWait (s : State) (timeout : Nat) : WaitEnd := waitEnd (s.env.afterAnswers s.cfg.slots) timeout

/-- `s` after the push into RX and that wait; `receiveWait_afterWait`. -/
def State.waited (s : State) (timeout : Nat) : State :=
  afterWait s (s.rxWait timeout).ticks (s.rxWait timeout).fired (s.rxWait timeout).irqPrev

/-- A mirror that was put in RX is in standby what it would have been before (44_transceiver.md R207). -/
theorem modeMirror_rx_standby {s : State} (h : s.cfg.wf) :
    modeMirror s.cfg (mirrorInMode s s.cfg.modeRx) s.cfg.modeStandby = mirrorInMode s s.cfg.modeStandby := by
  obtain ⟨-, -, -, -, -, -, hrx, -⟩ := h
  exact modeMirror_modeMirror hrx _ _

theorem inStandby_of_rx {s t : State} (h : s.cfg.wf) (hcfg : t.cfg = s.cfg)
    (hrx : t.drv.mir = mirrorInMode s s.cfg.modeRx) :
    t.inStandby = withMirror (mirrorInMode s s.cfg.modeStandby) t := by
  rw [← modeMirror_rx_standby h, ← hrx, ← hcfg]
  rfl

/-- A failed sample overwrites the phase. -/
theorem failedSample_enter (trigger : Bool) (j : Nat) (p : Phase) (s : State) :
    failedSample trigger j (s.enter p) = failedSample trigger j s := by
  cases trigger with
  | false => rfl
  | true =>
    match j with
    | 0 => rfl
    | 1 => rfl
    | _ + 2 => rfl

section
variable {s : State} {timeout : Nat} (h : s.RegInv) (hr : s.rstIn = none)
include h hr

/-- A receive whose push into RX fails (44_transceiver.md R220 step 1). -/
theorem receive_failed_rx (k : Bool → Resume) {j : Nat} (hj : j < s.cfg.slots) (hfail : failsAt s.env j) :
    receive timeout k s = .stop (failedPush (modeLast s.cfg) j (withMirror (mirrorInMode s s.cfg.modeRx) s)) := by
  obtain ⟨hcfg, hm, -⟩ := h
  rw [receive, receiveWait, push_failed (s := setMode s.cfg.modeRx s) hr hj hfail, presentOrder_rx hcfg hm]
  rfl

theorem receive_waited (k : Bool → Resume) (hs : s.env.succeeds s.cfg.slots) :
    receive timeout k s =
      (sampleRssi s.cfg.rxRssiTrigger (k (s.rxWait timeout).fired) ((s.waited timeout).enter .run)).andThen
        (receiveTail (s.rxWait timeout).fired) := by
  rw [receive, receiveWait_afterWait timeout h hr hs]
  rfl

/-- A receive whose sample fails (44_transceiver.md R220 step 3). -/
theorem receive_failed_sample (k : Bool → Resume) (hs : s.env.succeeds s.cfg.slots) {j : Nat}
    (hj : j < sampleSteps s.cfg.rxRssiTrigger) (hfail : failsAt (s.waited timeout).env j)
    (hready : j = 2 → (s.waited timeout).env.answerAt 1 &&& s.cfg.rssiDone ≠ 0) :
    receive timeout k s = .stop (failedSample s.cfg.rxRssiTrigger j (s.waited timeout)) := by
  rw [receive_waited h hr k hs, sampleRssi_failed (s := (s.waited timeout).enter .run) hr _ hj hfail hready,
    failedSample_enter, stop_andThen]

/-- A receive whose sample goes through comes to its tail (44_transceiver.md R220 steps 3 to 5). -/
theorem receive_sampled (k : Bool → Resume) (hs : s.env.succeeds s.cfg.slots)
    (hsample : (s.waited timeout).env.succeeds (sampleSteps s.cfg.rxRssiTrigger))
    (hready : s.cfg.rxRssiTrigger = true → (s.waited timeout).env.answerAt 1 &&& s.cfg.rssiDone ≠ 0) :
    receive timeout k s =
      receiveTail (s.rxWait timeout).fired (afterSample (s.waited timeout)).drv.rssiRaw
        ((afterSample (s.waited timeout)).enter .run) := by
  rw [receive_waited h hr k hs, sampleRssi_ok (s := (s.waited timeout).enter .run) _ _ hr hsample hready, ok_andThen]
  simp only [enter_phase, ite_self]
  rfl

/-- A receive that fails in its push into standby or in its payload (44_transceiver.md R220 steps 4 and 5). -/
theorem receive_failed_tail (k : Bool → Resume) (hs : s.env.succeeds s.cfg.slots)
    (hsample : (s.waited timeout).env.succeeds (sampleSteps s.cfg.rxRssiTrigger))
    (hready : s.cfg.rxRssiTrigger = true → (s.waited timeout).env.answerAt 1 &&& s.cfg.rssiDone ≠ 0) :
    let v := withMirror (mirrorInMode s s.cfg.modeStandby) (afterSample (s.waited timeout))
    (∀ j < s.cfg.slots, failsAt v.env j → receive timeout k s = .stop (failedPush (modeFirst s.cfg) j v)) ∧
    (v.env.succeeds s.cfg.slots → (s.rxWait timeout).fired = true →
      let p := pushed (modeFirst s.cfg) s.cfg.slots v
      ∀ j < s.cfg.frameLen, failsAt p.env j →
        receive timeout k s = .stop (failedRead s.cfg.addrFifo (afterPayload j p))) := by
  obtain ⟨-, hm, -⟩ : (setMode s.cfg.modeRx s).RegInv := regInv_setMode h _
  have htail := receiveTail_failed (s := (afterSample (s.waited timeout)).enter .run) h.1 hm hr (s.rxWait timeout).fired
  rw [inStandby_of_rx (t := (afterSample (s.waited timeout)).enter .run) h.1 rfl rfl] at htail
  intro v
  rw [receive_sampled h hr k hs hsample hready]
  exact htail

end

/-- A command that receives ends where its `receive` stops. -/
theorem exec_of_receive_stop {i : Instr} {s t : State} {timeout : Nat} (hi : receiveTimeout s i = some timeout)
    (harg : argumentInRange s i) (hf : s.flt.fault = false) (hstop : ∀ k, receive timeout k s = .stop t) :
    exec i s = .next t := by
  obtain ⟨k, rest, -, hexec⟩ := exec_of_receiveTimeout hi harg
  exact hexec.trans (next_judge_stop hf (hstop k) rest)

/-- A turn of the poll that sees the ready bit ends where the tail of its `receive` stops (45_rssi.md R247). -/
theorem step_of_receiveTail_stop {s t : State} {fired : Bool} (hr : s.rstIn = none)
    (hp : s.phase = .pollRssi (.receive fired) ∨ s.phase = .pollRssi (.loopStep fired)) (hs : s.env.succeeds 2)
    (hready : s.env.answerAt 0 &&& s.cfg.rssiDone ≠ 0)
    (hstop : receiveTail fired (s.env.answerAt 1) ((afterReady s.unpresent).enter .run) = .stop t) :
    step s = .next t := by
  rcases hp with hp | hp <;>
    rw [step_ready hp hr hs hready, afterRssi, hstop, stop_andThen, finish_stop]

/-- Settles O53: stage by stage, the push into RX, the sample, the tail; a later turn of the poll has the tail only. -/
theorem failedReceiveStopsAtItsFailedTransaction : Obligations.FailedReceiveStopsAtItsFailedTransaction := by
  unfold Obligations.FailedReceiveStopsAtItsFailedTransaction
  constructor
  · rintro i s timeout hi h ⟨hf, hr⟩ harg
    have hstop {t : State} : (∀ k, receive timeout k s = .stop t) → exec i s = .next t :=
      exec_of_receive_stop hi harg hf
    refine ⟨fun j hj hfail => hstop fun k => receive_failed_rx h hr k hj hfail, fun hs =>
      ⟨(s.rxWait timeout).ticks, (s.rxWait timeout).fired, (s.rxWait timeout).irqPrev,
        waitEnds_afterAnswers (waitEnds_waitEnd _ timeout),
        fun j hj hfail hready => hstop fun k => receive_failed_sample h hr k hs hj hfail hready,
        fun hsample hready => ?_⟩⟩
    have htail := fun k => receive_failed_tail h hr k hs hsample hready
    exact ⟨fun j hj hfail => hstop fun k => (htail k).1 j hj hfail,
      fun hs' hfired j hj hfail => hstop fun k => (htail k).2 hs' hfired j hj hfail⟩
  · rintro s fired ⟨hcfg, hm, -⟩ ⟨-, hr⟩ hp hs hready
    obtain ⟨hpush, hpayload⟩ := receiveTail_failed (s := (afterReady s.unpresent).enter .run) hcfg hm hr fired
    exact ⟨fun j hj hfail => step_of_receiveTail_stop hr hp hs hready (hpush j hj hfail),
      fun hs' hfired j hj hfail => step_of_receiveTail_stop hr hp hs hready (hpayload hs' hfired j hj hfail)⟩

/-! ### A failed payload read of `RECEIVE.I` -/

/-- A wait that may end with the edge cannot time out (44_transceiver.md R222). -/
theorem fired_of_waitEnds {e : Env} {t0 timeout ticks ticks' : Nat} {fired : Bool}
    (h : waitEnds e t0 timeout ticks true) (h' : waitEnds e t0 timeout ticks' fired) : fired = true := by
  obtain ⟨-, hpos, hle, hrise, -⟩ | ⟨hfalse, -⟩ := h
  · obtain ⟨hfired, -⟩ | ⟨-, -, hnone⟩ := h'
    · exact hfired
    · exact absurd hrise (hnone ticks hpos hle)
  · cases hfalse

theorem waited_answerAt (s : State) (timeout k : Nat) :
    (s.waited timeout).env.answerAt k = s.env.answerAt (s.cfg.slots + k) := by
  simp [State.waited, afterWait, answerAt_afterAnswers]

/-- Where a `receive` has come to after its sample (44_transceiver.md R220 steps 1 to 3). -/
theorem afterSample_waited (s : State) (timeout : Nat) :
    let n := s.cfg.slots
    let m := sampleSteps s.cfg.rxRssiTrigger
    let w := s.rxWait timeout
    afterSample (s.waited timeout) = { s with
      drv := { s.drv with
        mir := mirrorInMode s s.cfg.modeRx, rssiRaw := s.env.answerAt (n + m - 1), irqPrev := w.irqPrev }
      env := (s.env.afterAnswers (n + m)).pass w.ticks
      trace := s.trace ++ slotWrites s.cfg (mirrorInMode s s.cfg.modeRx) (modeLast s.cfg) ++ [.wait w.ticks w.fired] ++
        sampleEvents s.cfg s.cfg.rxRssiTrigger (s.env.answerAt (n + 1)) (s.env.answerAt (n + m - 1)) } := by
  intro n m w
  rw [Nat.add_sub_assoc (sampleSteps_pos _), afterAnswers_add, ← pass_afterAnswers]
  simp only [afterSample, waited_answerAt]
  rfl

/-- `s` where the payload reads of a `receive` begin: after its wait, its sample and its push into standby
(44_transceiver.md R220 step 5); `receive_failed_tail`. -/
def State.beforePayload (s : State) (timeout : Nat) : State :=
  pushed (modeFirst s.cfg) s.cfg.slots (withMirror (mirrorInMode s s.cfg.modeStandby) (afterSample (s.waited timeout)))

theorem beforePayload_env (s : State) (timeout : Nat) :
    (s.beforePayload timeout).env =
      (s.env.afterAnswers (s.cfg.slots + sampleSteps s.cfg.rxRssiTrigger + s.cfg.slots)).pass
        (s.rxWait timeout).ticks := by
  rw [afterAnswers_add _ s.cfg.slots, ← pass_afterAnswers, State.beforePayload, afterSample_waited]
  rfl

/-- Settles O44: the edge came, so the `receive` fails in its tail, as in O53. -/
theorem failedPayloadReadKeepsTheBytesBeforeIt : Obligations.FailedPayloadReadKeepsTheBytesBeforeIt := by
  unfold Obligations.FailedPayloadReadKeepsTheBytesBeforeIt
  rintro s w k ticks h ⟨hf, hr⟩ hk hready hwait before hs hfail
  have hfired : (s.rxWait w.toNat).fired = true :=
    fired_of_waitEnds hwait (waitEnds_afterAnswers (waitEnds_waitEnd _ w.toNat))
  obtain ⟨hbefore, hpayload⟩ := succeeds_add.mp hs
  obtain ⟨hsampled, hstandby⟩ := succeeds_add.mp hbefore
  obtain ⟨hpush, hsample⟩ := succeeds_add.mp hsampled
  rw [afterAnswers_add] at hfail
  have henv := beforePayload_env s w.toNat
  have hread : failsAt (s.beforePayload w.toNat).env k := by
    rw [henv]
    exact pass_failsAt.mpr ⟨hpayload, hfail⟩
  have hexec : exec (.receiveI w) s =
      .next (failedRead s.cfg.addrFifo (afterPayload k (s.beforePayload w.toNat))) :=
    exec_of_receive_stop rfl trivial hf fun κ =>
      (receive_failed_tail h hr κ hpush (pass_succeeds.mpr hsample) (by rwa [waited_answerAt])).2
        (by rw [afterSample_waited]; exact pass_succeeds.mpr hstandby) hfired k hk hread
  have hbytes : (s.beforePayload w.toNat).env.answersFrom 0 k = s.env.answersFrom before k := by
    rw [henv, pass_answersFrom, answersFrom_afterAnswers, Nat.add_zero]
  rw [State.beforePayload, afterSample_waited] at hexec hbytes
  exact ⟨_, hexec, congrArg (· ++ s.buf.raw.drop k) hbytes, rfl, rfl, rfl, rfl, rfl, rfl, rfl, rfl, rfl, rfl, rfl, rfl,
    rfl⟩

/-! ### A failed tuning of `LOOP.STEP` -/

/-- The decision of `LOOP.STEP` and its hop stand when the tuning fails (46_receive_loop.md R257). -/
theorem loopDecide_failed {s : State} {k : Nat} (h : s.RegInv) (hr : s.rstIn = none) (hk : k < s.cfg.slots) :
    let decided := afterHandle s.drv.rxTimedOut s
    decided.sync.shouldHop = true → failsAt decided.env k →
      loopDecide s = .stop (failedPush (modeFirst s.cfg) k
        (withMirror (tunedMirror (afterHop decided) (afterHop decided).sync.hopFreq) (afterHop decided))) := by
  intro decided hhop hfail
  have heq : handle s.drv.rxTimedOut s = decided := handle_eq_afterHandle h _
  obtain ⟨hcfg, hm, -⟩ : decided.RegInv := regInv_afterHandle h _
  simp only [loopDecide, heq]
  rw [if_pos hhop, hopAndTune_failed (s := decided) hcfg hm hr hk hfail, stop_andThen]
  rfl

/-- A whole `receive` that reads its payload only when the edge came (44_transceiver.md R220). -/
theorem receive_whole {s : State} {timeout : Nat} (h : s.RegInv) (hr : s.rstIn = none) (k : Bool → Resume)
    (hs : s.env.succeeds (s.cfg.slots + sampleSteps s.cfg.rxRssiTrigger + s.cfg.slots +
      if (s.rxWait timeout).fired then s.cfg.frameLen else 0))
    (hready : s.cfg.rxRssiTrigger = true → s.env.answerAt (s.cfg.slots + 1) &&& s.cfg.rssiDone ≠ 0) :
    receive timeout k s = .ok ()
      (afterReceive s (s.rxWait timeout).ticks (s.rxWait timeout).fired (s.rxWait timeout).irqPrev) := by
  obtain ⟨-, hm, -⟩ : (setMode s.cfg.modeRx s).RegInv := regInv_setMode h _
  rw [Nat.add_assoc] at hs
  obtain ⟨hbefore, htail⟩ := succeeds_add.mp hs
  obtain ⟨hpush, hsample⟩ := succeeds_add.mp hbefore
  rw [receive_sampled h hr k hpush (pass_succeeds.mpr hsample) (by rwa [waited_answerAt]), afterSample_waited,
    receiveTail_ok]
  case hc => exact h.1
  case hm => exact hm
  case hr => exact hr
  case hs => exact pass_succeeds.mpr htail
  simp only [State.enter, modeMirror_rx_standby h.1, pass_afterAnswers, pass_answers, ← afterAnswers_add,
    ← Nat.add_assoc, afterReceive, List.append_assoc]
  rfl

/-- Settles O55: after the `receive` of the step, or the rest of one in a later turn, the decision fails in its
tuning. -/
theorem failedTuneOfLoopStepKeepsTheDecision : Obligations.FailedTuneOfLoopStepKeepsTheDecision := by
  unfold Obligations.FailedTuneOfLoopStepKeepsTheDecision
  constructor
  · rintro s h ⟨hf, hr⟩ hrange hready -
    refine ⟨_, _, (s.rxWait s.cfg.dwell.toNat).irqPrev, waitEnds_afterAnswers (waitEnds_waitEnd _ _), ?_⟩
    intro decided hs k hk hhop hfail
    have hexec : exec .loopStep s = .next (judge s (nextFreqInRange s) (loopTurn s).finish) := rfl
    have harg : nextFreqInRange s = true := (freqInRange_iff s.cfg s.nextFreq).mpr hrange
    have hstop := loopDecide_failed (regInv_afterReceive h _ _ _) hr hk hhop hfail
    rw [hexec, harg, judge_of_clear hf, loopTurn, receive_whole h hr _ hs hready, ok_andThen]
    exact congrArg (Host.Outcome.next ∘ Res.finish) hstop
  · rintro s fired h ⟨-, hr⟩ hp - hready hs decided k hk hhop hfail
    have hsample : s.env.succeeds 2 := succeeds_of_le hs (by omega)
    have hstop := loopDecide_failed (regInv_afterPolledReceive fired h) hr hk hhop hfail
    rw [step_ready hp hr hsample hready, afterRssi, receiveTail_afterPolledReceive fired h hr hs, ok_andThen]
    exact congrArg (Host.Outcome.next ∘ Res.finish) hstop

end Sys2Proof.Machine
